-- ==== Sys2Proof/Word.lean ====
section
/-! DEFINITION. The two widths the spec gives values: the byte of the serial link, of SCAN and of the
PWM duty register (`W_DUTY` = 8, R6), and the 16-bit unsigned word of table entries, step counts,
indices and job parameters (`W_DELAY`, `W_STEP`, `W_PARAM` = 16, R6 and R8). -/

namespace Sys2Proof

/-- `u8` of R11: a wire byte, a SCAN element, a PWM duty. -/
abbrev Byte := BitVec 8

/-- `u16` of R11: a delay in timer ticks, a step count, an index, a job parameter. -/
abbrev U16 := BitVec 16

end Sys2Proof
end

