-- ==== Sys2Proof/Syntax.lean ====
section
/-! DEFINITION. The operations of the block (R2): one constructor of `Instr` for each row of
spec/opcode_table.json, with the operand types they take. -/

namespace Sys2Proof

/-- The counting direction of a move (R22). -/
inductive Direction where
  | forward
  | reverse
deriving DecidableEq, Repr, Inhabited

/-- The `mode` operand of `arm_move` (R123): three values; the reserved register value 3 is no operand. -/
inductive MoveMode where
  | normal
  | fromTable
  | raster
deriving DecidableEq, Repr

/-- The two compare-match events of the step timer (R32): START is the pulse-start edge, END the pulse-end edge. -/
inductive TimerEvent where
  | pulseStart
  | pulseEnd
deriving DecidableEq, Repr, Inhabited

/-- The seven selectors that open a numeric argument (R92, R98), named after their letters. -/
inductive Selector where
  | x
  | y
  | p
  | b
  | s
  | r
  | v
deriving DecidableEq, Repr

/-- The argument part of a format F1 message (R92, R96, R103): `nd` digit bytes whose decimal value is
`acc`, ended by the byte `term`. The message is well formed when `term` is the delimiter and there is at
least one digit; any other `term` is the offending byte with which a malformed message ends (R103). -/
structure Arg where
  /-- number of digits read before `term` (0 to 5) -/
  nd : Nat
  /-- the decimal value of those digits (0 to 99999) -/
  acc : Nat
  /-- the byte that ended the argument -/
  term : Byte
deriving DecidableEq, Repr

/-- One constructor per row of spec/opcode_table.json, in the table's order. -/
inductive Instr where
  /-- `HANDSHAKE`, wire `##` (R196) -/
  | handshake
  /-- `SET_X`, wire `#X<n>;` (R197) -/
  | setX (a : Arg)
  /-- `SET_Y`, wire `#Y<n>;` (R198) -/
  | setY (a : Arg)
  /-- `SET_P`, wire `#P<n>;` (R199) -/
  | setP (a : Arg)
  /-- `SET_B`, wire `#B<n>;` (R200) -/
  | setB (a : Arg)
  /-- `SET_S`, wire `#S<n>;` (R201) -/
  | setS (a : Arg)
  /-- `SET_R`, wire `#R<n>;` (R202) -/
  | setR (a : Arg)
  /-- `SET_V`, wire `#V<n>;` (R203) -/
  | setV (a : Arg)
  /-- `START`, wire `#!` (R204) -/
  | start
  /-- `UNKNOWN`, wire `#` and any other byte (R205) -/
  | unknown (sel : Byte)
  /-- `PAYLOAD`, raw bytes of a scanline (R93, R233): all `jp.out_width` of them, or the part that has arrived -/
  | payload (bytes : List Byte)
  /-- `HS_ACK`, reply `##` (R206) -/
  | hsAck
  /-- `ACK`, reply `#Y` (R207) -/
  | ack
  /-- `NAK`, reply `#N` (R208) -/
  | nak
  /-- `LINE_READY`, reply `#D` (R209) -/
  | lineReady
  /-- `ERR`, reply `#?` (R210) -/
  | err
  /-- `PULSE_START`, the pulse-start event (R124) -/
  | pulseStart
  /-- `PULSE_END.NORMAL`, the pulse-end event with `mc.mode` NORMAL (R129) -/
  | pulseEndNormal
  /-- `PULSE_END.FROM_TABLE`, the pulse-end event with `mc.mode` FROM_TABLE (R130) -/
  | pulseEndFromTable
  /-- `PULSE_END.RASTER`, the pulse-end event with `mc.mode` RASTER (R131) -/
  | pulseEndRaster
  /-- `arm_move` (R123) -/
  | armMove (mode : MoveMode) (dir : Direction) (total delay offset : U16)
  /-- `wait_done` (R133) -/
  | waitDone
  /-- `laser_preload` (R151) -/
  | laserPreload (v : Byte)
  /-- `laser_enable` (R152) -/
  | laserEnable
  /-- `laser_disable` (R153) -/
  | laserDisable
  /-- `raster_move` (R157) -/
  | rasterMove (w offset : U16) (dir : Direction) (rate : U16)
  /-- `ramp_scan` (R166) -/
  | rampScan (rate : U16)
  /-- `flat_move` (R167) -/
  | flatMove (n rate : U16)
  /-- `accelerate` (R168) -/
  | accelerate (rate padSteps : U16)
  /-- `decelerate` (R169) -/
  | decelerate (rate padSteps : U16)
  /-- `start_job` (R231) -/
  | startJob
  /-- `read_line` (R233) -/
  | readLine
  /-- `advance_secondary` (R235) -/
  | advanceSecondary
deriving DecidableEq, Repr

end Sys2Proof
end

