-- ==== Sys2Proof/Config.lean ====
section
/-! DEFINITION. What an implementation fixes (the parameters of R6 to R10) and the free values: constants
without a body, of which nothing can be evaluated or proved. -/

namespace Sys2Proof

/-- `MAX_DIGITS` (R6): the most ASCII digits of a numeric argument. -/
def Config.maxDigits : Nat := 5

/-- `W_PARAM` bound (R195): the largest value a 16-bit job parameter accepts. -/
def Config.maxParam : Nat := 65535

/-- The parameters of R7 to R10, fixed for a run. A state carries them in `cfg`, which no step changes, because
the step function takes the state as its only argument (R20 makes them arguments of the step relation; log 1). -/
structure Params where
  /-- `TABLE[0 .. N_TABLE-1]` (R9, R61); `N_TABLE` is its length -/
  table : List U16
  /-- `PULSE_WIDTH` (R10) -/
  pulseWidth : U16
  /-- `SCAN_CAP` (R7), default 1024 -/
  scanCap : U16 := 1024
  /-- `FIRST_EVENT` (R8, D4), default START -/
  firstEvent : TimerEvent := .pulseStart
  /-- `REPLY_ON_BAD_SENTINEL` (R8, D15), default true -/
  replyOnBadSentinel : Bool := true
  /-- `LINE_TIMEOUT_ABORTS` (R8, D21), default true -/
  lineTimeoutAborts : Bool := true
  /-- `LINE0_DIR` (R8, D19), default FORWARD -/
  line0Dir : Direction := .forward
  /-- `VELOCITY_RESET` (R8, D23), default 65535 -/
  velocityReset : U16 := 65535
deriving DecidableEq, Repr

/-- The constraints R7 to R10 put on the parameters: the length bound of R8, the non-increasing table of R9 and R62,
every entry and the reset velocity above the pulse width, a pulse width and a capacity of at least one. -/
abbrev Params.Valid (c : Params) : Prop :=
  1 ≤ c.table.length ∧ c.table.length ≤ 65534 ∧
  c.table.Pairwise (fun a b => b ≤ a) ∧
  (∀ d ∈ c.table, c.pulseWidth < d) ∧
  1 ≤ c.pulseWidth ∧ 1 ≤ c.scanCap ∧ c.pulseWidth < c.velocityReset

/-- The AccelTable of the machine that comes out of reset: OPEN in the spec (R8, R9, N1), so a free value. -/
opaque Config.table : List U16

/-- The pulse width of the machine that comes out of reset: OPEN in the spec (R8, R10, N2), so a free value. -/
opaque Config.pulseWidth : U16

/-- The parameters of the machine that comes out of reset: the open ones free, the others at the defaults of R8. -/
def Config.params : Params := { table := Config.table, pulseWidth := Config.pulseWidth }

/-- Which agent takes the next atomic step, and the input it brings (R5, R52, R122, R191): the interleaving the
spec leaves free. -/
inductive Turn where
  /-- FOREGROUND takes its next atomic step, or holds where its rule says it waits -/
  | foreground
  /-- STEP_TIMER raises the one enabled event; nothing happens when none is -/
  | timer
  /-- HOST appends one byte to `rx` -/
  | host (b : Byte)
  /-- the bounded wait of the RxRead that FOREGROUND is blocked in expires; nothing happens when it is in none -/
  | timeout
deriving DecidableEq, Repr, Inhabited

/-- Free value: who moves next when the state prescribes no turn (R74, R122: any enabled agent may; log 3).
The argument is the counter `tick`, so each choice is a fresh one. -/
opaque Config.freeTurn : Nat → Turn

/-- Free value: how many free turns an enabled timer event lets the other agents take before it occurs at the latest
(R122, R300: weak fairness says that it occurs, not when; log 3). The argument is the tick at which the wait began, so each
wait is a fresh choice. -/
opaque Config.patience : Nat → Nat

/-- Free value: what reading a SCAN element that nothing has written gives (U9, D34: any value, fresh on each read).
The argument is the counter `fresh`. -/
opaque Config.freeByte : Nat → Byte

end Sys2Proof
end

