-- ==== Sys2Proof/Machine/State.lean ====
section
/-! DEFINITION. The state of the block (R20): every register group of spec/10_state.md, the ScanlineBuffer, the two
streams, the ghost list of pulses, and the model's own fields, which docstrings mark as such. All plain data. -/

namespace Sys2Proof.Machine

/-- The two bits of `mc.mode` (R21, R100): the three modes and the reserved value 3. -/
inductive ModeReg where
  | normal
  | fromTable
  | raster
  | reserved
deriving DecidableEq, Repr

/-- The latch `axis` (R34). -/
inductive Axis where
  | x
  | y
deriving DecidableEq, Repr

/-- The latch `phys_dir` (R34). -/
inductive PhysDir where
  | pos
  | neg
deriving DecidableEq, Repr

/-- `ps.state` (R41). -/
inductive ParserState where
  | awaitSentinel
  | awaitSelector
  | readArg
deriving DecidableEq, Repr

/-- `job.phase` (R237). -/
inductive JobPhase where
  | none
  | reqLine
  | readLine
  | accelRamp
  | accelFlat
  | raster
  | decelFlat
  | decelRamp
  | pitch
deriving DecidableEq, Repr

/-- `mc.*`, the MoveCommand (R21 to R25). -/
structure MoveCommand where
  /-- `mc.mode` (R21) -/
  mode : ModeReg
  /-- `mc.direction` (R22) -/
  direction : Direction
  /-- `mc.step_index` (R23) -/
  stepIndex : U16
  /-- `mc.total_steps` (R24) -/
  totalSteps : U16
  /-- `mc.scanline_offset` (R25) -/
  scanlineOffset : U16
deriving DecidableEq, Repr

/-- `tmr.*`, the step timer (R29 to R32). -/
structure StepTimer where
  /-- `tmr.run` (R29) -/
  run : Bool
  /-- `tmr.cmp_start` (R30) -/
  cmpStart : U16
  /-- `tmr.cmp_end` (R31) -/
  cmpEnd : U16
  /-- `tmr.next` (R32) -/
  next : TimerEvent
deriving DecidableEq, Repr

/-- `pwm.*`, the PWM peripheral (R35 to R37). -/
structure Pwm where
  /-- `pwm.duty` (R35) -/
  duty : Byte
  /-- `pwm.run` (R36) -/
  run : Bool
  /-- `pwm.connected` (R37) -/
  connected : Bool
deriving DecidableEq, Repr

/-- `jp.*`, the JobParameters (R39). -/
structure JobParameters where
  /-- `jp.out_width`, set by `#X` -/
  outWidth : U16
  /-- `jp.image_height`, set by `#Y` -/
  imageHeight : U16
  /-- `jp.pixel_width`, set by `#P`, read by no rule (R238) -/
  pixelWidth : U16
  /-- `jp.backlash`, set by `#B` -/
  backlash : U16
  /-- `jp.pitch`, set by `#S` -/
  pitch : U16
  /-- `jp.ramp_len`, set by `#R` -/
  rampLen : U16
  /-- `jp.velocity`, set by `#V` -/
  velocity : U16
deriving DecidableEq, Repr

/-- `ps.*`, the parser (R41, R42). -/
structure Parser where
  /-- `ps.state` (R41) -/
  state : ParserState
  /-- `ps.cmd` (R42): the selector byte of the numeric command being read, one of the seven of R98 -/
  cmd : Selector
  /-- `ps.acc` (R42): the value read so far, 0 to 99999 -/
  acc : Nat
  /-- `ps.nd` (R42): the digits read so far, 0 to 5 -/
  nd : Nat
deriving DecidableEq, Repr

/-- `job.*`, the job sequencer (R43). -/
structure Sequencer where
  /-- `job.phase` (R43, R237) -/
  phase : JobPhase
  /-- `job.line` (R43) -/
  line : U16
  /-- `job.col` (R43) -/
  col : U16
  /-- `job.k` (R43, R166) -/
  k : U16
deriving DecidableEq, Repr

/-- One record of the ghost list `pulses` (R48): `(axis, phys_dir, tmr.cmp_start, laser_out)`. -/
structure Pulse where
  axis : Axis
  physDir : PhysDir
  delay : U16
  laser : Byte
deriving DecidableEq, Repr

/-- The model's own: what FOREGROUND still has to do of the operations it is inside (R74: an operation is a sequence
of atomic steps; log 5). -/
inductive Task where
  /-- the `wait_done()` an operation ends a move with -/
  | wait
  /-- the `laser_disable()` at the end of `raster_move` (R157) -/
  | laserOff
  /-- the part of `accelerate(rate, pad_steps)` after its ramp (R168) -/
  | cruise (rate padSteps : U16)
  /-- the ramp of `decelerate` after its flat move (R169) -/
  | decelRamp
  /-- the rest of a `read_line` that runs outside a job (R233) -/
  | lineRead
deriving DecidableEq, Repr

/-- The SCAN memory (R63): pairs of an element index and its byte, indices strictly rising; an element that is not
listed has not been written. -/
abbrev Memory := List Host.Cell

/-- The state of the block (R20). -/
structure State where
  /-- the parameters of the run (R6 to R10), which no step changes (log 1) -/
  cfg : Params
  /-- MoveCommand -/
  mc : MoveCommand
  /-- RunningFlag (R27) -/
  running : Bool
  /-- step timer -/
  tmr : StepTimer
  /-- `step_out` (R33), true when asserted -/
  stepOut : Bool
  /-- `axis` (R34) -/
  axis : Axis
  /-- `phys_dir` (R34) -/
  physDir : PhysDir
  /-- PWM peripheral -/
  pwm : Pwm
  /-- JobParameters -/
  jp : JobParameters
  /-- parser -/
  ps : Parser
  /-- job sequencer -/
  job : Sequencer
  /-- the ScanlineBuffer `SCAN` (R63) -/
  scan : Memory
  /-- the receive stream (R50), oldest byte first -/
  rx : List Byte
  /-- the transmit stream (R51), oldest byte first -/
  tx : List Byte
  /-- the ghost list `pulses` (R48), oldest first -/
  pulses : List Pulse
  /-- the model's own: FOREGROUND's pending tasks, next one first (log 5) -/
  agenda : List Task
  /-- the model's own: the turns the run is told to take next; when empty, each turn is free (log 3) -/
  turns : List Turn
  /-- the model's own: counter of the free turns taken (log 3) -/
  tick : Nat
  /-- the model's own: how many free turns the enabled timer event has waited (log 3) -/
  waited : Nat
  /-- the model's own: counter of the free SCAN bytes read (log 4) -/
  fresh : Nat
deriving DecidableEq, Repr

/-- The precondition violations of R251, where the source leaves the behaviour undefined: the run ends in a faulted
state that is never final. Each carries the information of R251 and, as `left`, the state of R252: the offending access and
every later write have not happened, and what the ISR did before its dispatch has (log 13). All are safe: the model stops
where the hardware would go on in a way the spec does not give. -/
inductive Fault where
  /-- `Fault.Rearm`: `arm_move` while a move is active. Safe. -/
  | rearm (left : State)
  /-- `Fault.ZeroSteps`: `arm_move` of a move of no steps. Safe. -/
  | zeroSteps (left : State)
  /-- `Fault.DelayTooShort(d)`: `timer_program` with a delay not above the pulse width. Safe. -/
  | delayTooShort (d : U16) (left : State)
  /-- `Fault.TableRange(i)`: a read of AccelTable element `i` outside the table. Safe. -/
  | tableRange (i : Nat) (left : State)
  /-- `Fault.ScanRange(i)`: an access to ScanlineBuffer element `i` outside the buffer. Safe. -/
  | scanRange (i : Nat) (left : State)
  /-- `Fault.SingleWriter` for `pwm.duty`: `laser_preload` during a move. Safe. -/
  | singleWriterDuty (left : State)
  /-- `Fault.SingleWriter` for `pwm.run` and `pwm.connected`: `laser_enable` or `laser_disable` during a move. Safe. -/
  | singleWriterOutput (left : State)
  /-- `Fault.SingleWriter` for `axis` and `phys_dir`: the sequencer writes the latches during a move. Safe. -/
  | singleWriterLatch (left : State)
  /-- `Fault.SingleWriter` for SCAN: a payload byte stored during a move. Safe. -/
  | singleWriterScan (left : State)
  /-- `Fault.ReservedMode`: a pulse-end event that does not complete finds `mc.mode` = 3. Safe. -/
  | reservedMode (left : State)
deriving DecidableEq, Repr

/-- The situations without a meaning. -/
inductive Refusal where
  /-- raised by `exec` for an instruction that has no meaning in the model (none is left). Safe. -/
  | notModelled (mnemonic : String)
  /-- `refuse Backlash` (R236, R253): a job started with `jp.backlash` not zero. Safe. -/
  | backlash
deriving DecidableEq, Repr

/-- The machine with parameters `c` right after reset (R53, R281). Where R53 says 'unspecified' the value here is the
model's, marked DESIGN CHOICE in log 2 (log 3 to 5 for the model's own fields). -/
def State.resetWith (c : Params) : State where
  cfg := c
  mc := { mode := .normal, direction := .forward, stepIndex := 0, totalSteps := 0, scanlineOffset := 0 }
  running := false
  tmr := { run := false, cmpStart := 0, cmpEnd := 0, next := .pulseStart }
  stepOut := false
  axis := .x
  physDir := .pos
  pwm := { duty := 0, run := false, connected := false }
  jp :=
    { outWidth := 0, imageHeight := 0, pixelWidth := 0, backlash := 0, pitch := 0, rampLen := 0,
      velocity := c.velocityReset }
  ps := { state := .awaitSentinel, cmd := .x, acc := 0, nd := 0 }
  job := { phase := .none, line := 0, col := 0, k := 0 }
  scan := []
  rx := []
  tx := []
  pulses := []
  agenda := []
  turns := []
  tick := 0
  waited := 0
  fresh := 0

/-- The machine right after reset: the defaults of R8, with the open parameters free. -/
def State.reset : State := State.resetWith Config.params

end Sys2Proof.Machine
end

