-- ==== Sys2Proof/Machine/Flags.lean ====
section
/-! DEFINITION. The one-bit status flags of R46 (`running`, `tmr.run`, `pwm.run`, `pwm.connected`, `step_out`), each with
exactly the writers its rule names, and the two observables computed from them. -/

namespace Sys2Proof.Machine

/-- `timer_start()` (R121). -/
def timerStart (s : State) : State :=
  { s with tmr := { s.tmr with run := true, next := s.cfg.firstEvent } }

/-- `timer_stop()` (R121). -/
def timerStop (s : State) : State :=
  { s with tmr := { s.tmr with run := false } }

/-- Step 3 of `arm_move` (R123, R77): start the timer and set RunningFlag in one step. -/
def launch (s : State) : State :=
  { timerStart s with running := true }

/-- `complete()` (R128): stop the timer and clear RunningFlag. -/
def complete (s : State) : State :=
  { timerStop s with running := false }

/-- Write the level of the step output (R33). -/
def setStepOut (v : Bool) (s : State) : State :=
  { s with stepOut := v }

/-- Start the PWM timer and connect its output, or stop and disconnect it (R152, R153). -/
def setOutput (v : Bool) (s : State) : State :=
  { s with pwm := { s.pwm with run := v, connected := v } }

/-- `laser_out` (R38): the duty when the output is connected and the PWM timer runs, else 0. -/
def laserOut (s : State) : Byte :=
  if s.pwm.connected && s.pwm.run then s.pwm.duty else 0

/-- Is this event the enabled one (R122)? -/
def eventEnabled (e : TimerEvent) (s : State) : Bool :=
  s.tmr.run && decide (s.tmr.next = e)

/-- Does the pulse-end event complete the move (R126, R127)? Forward: the incremented index equals the total.
Reverse: the index before the decrement is zero. -/
def moveDone (mc : MoveCommand) : Bool :=
  match mc.direction with
  | .forward => decide (mc.stepIndex + 1 = mc.totalSteps)
  | .reverse => decide (mc.stepIndex = 0)

end Sys2Proof.Machine
end

