-- ==== Sys2Proof/Decode.lean ====
section
/-! DEFINITION. The wire encodings (spec/30_encoding.md): the decoder, total on any bytes and rejecting by name, and
the encoder, both written from R91 to R99. The two directions of the link are separate streams (R99, R107), and a
payload is recognised by position alone (R103), so the decoder is told which stream it reads. -/

namespace Sys2Proof

/-- `SENTINEL` (R6, R17): `#`. -/
def sentinel : Byte := 0x23

/-- `DELIM` (R6, R17): `;`. -/
def delimiter : Byte := 0x3B

/-- A digit byte of R92: 0x30 to 0x39. -/
def isDigit (b : Byte) : Bool := 0x30#8 ≤ b && b ≤ 0x39#8

/-- The value of a digit byte (R96). -/
def digitValue (b : Byte) : Nat := b.toNat - 0x30

/-- The selector byte of a set command (R98). -/
def selectorByte : Selector → Byte
  | .x => 0x58
  | .y => 0x59
  | .p => 0x50
  | .b => 0x42
  | .s => 0x53
  | .r => 0x52
  | .v => 0x56

/-- The set command a selector byte opens, if it is one of the seven letters of R98 (exact byte values, R102). -/
def selectorOf (b : Byte) : Option Selector :=
  if b = 0x58 then some .x
  else if b = 0x59 then some .y
  else if b = 0x50 then some .p
  else if b = 0x42 then some .b
  else if b = 0x53 then some .s
  else if b = 0x52 then some .r
  else if b = 0x56 then some .v
  else none

/-- The set command of a selector with its argument (R98). -/
def setInstr : Selector → Arg → Instr
  | .x, a => .setX a
  | .y, a => .setY a
  | .p, a => .setP a
  | .b, a => .setB a
  | .s, a => .setS a
  | .r, a => .setR a
  | .v, a => .setV a

/-- The two-byte command of a selector that opens no argument (R98, R103): `##`, `#!`, everything else UNKNOWN. -/
def shortInstr (b : Byte) : Instr :=
  if b = 0x23 then .handshake else if b = 0x21 then .start else .unknown b

/-- Does this byte continue a numeric argument that already has `nd` digits (R97, R194)? -/
def extendsArg (nd : Nat) (b : Byte) : Bool := isDigit b && decide (nd < Config.maxDigits)

/-- Which stream the bytes come from: the command channel, the payload of a line of `n` bytes (R103), or the
replies the device sends (R99). -/
inductive Wire where
  | command
  | payload (n : Nat)
  | reply
deriving DecidableEq, Repr

/-- Why bytes are no message. -/
inductive DecodeError where
  /-- the bytes end before the message does -/
  | truncated
  /-- the first byte is not the sentinel: the bad sentinel of R101 -/
  | badSentinel (b : Byte)
  /-- the device sends no such reply (R101, last row) -/
  | notAReply (b : Byte)
  /-- a payload of no bytes is no message -/
  | emptyPayload
deriving DecidableEq, Repr

/-- The argument of a set command (R92, R96, R97, R103): digits up to the fifth, then the byte that ends it, which is
consumed as part of the message whether or not it is the delimiter. -/
def decodeArg (c : Selector) : Nat → Nat → List Byte → Except DecodeError (Instr × List Byte)
  | _, _, [] => .error .truncated
  | nd, acc, b :: rest =>
    if extendsArg nd b then decodeArg c (nd + 1) (acc * 10 + digitValue b) rest
    else .ok (setInstr c ⟨nd, acc, b⟩, rest)

/-- A host-to-device message and the bytes after it (R91, R92, R98, R103). -/
def decodeCommand : List Byte → Except DecodeError (Instr × List Byte)
  | [] => .error .truncated
  | b :: rest =>
    if b = sentinel then
      match rest with
      | [] => .error .truncated
      | sel :: rest' =>
        match selectorOf sel with
        | some c => decodeArg c 0 0 rest'
        | none => .ok (shortInstr sel, rest')
    else .error (.badSentinel b)

/-- A scanline payload of `n` bytes and the bytes after it (R93, R104: no framing, no escaping). -/
def decodePayload (n : Nat) (bytes : List Byte) : Except DecodeError (Instr × List Byte) :=
  if n = 0 then .error .emptyPayload
  else if bytes.length < n then .error .truncated
  else .ok (.payload (bytes.take n), bytes.drop n)

/-- The reply of a device-to-host selector byte (R99). -/
def replyOf (b : Byte) : Except DecodeError Instr :=
  if b = 0x23 then .ok .hsAck
  else if b = 0x59 then .ok .ack
  else if b = 0x4E then .ok .nak
  else if b = 0x44 then .ok .lineReady
  else if b = 0x3F then .ok .err
  else .error (.notAReply b)

/-- A device-to-host message and the bytes after it (R91, R99). -/
def decodeReply : List Byte → Except DecodeError (Instr × List Byte)
  | [] => .error .truncated
  | b :: rest =>
    if b = sentinel then
      match rest with
      | [] => .error .truncated
      | sel :: rest' =>
        match replyOf sel with
        | .ok i => .ok (i, rest')
        | .error e => .error e
    else .error (.badSentinel b)

/-- The decoder of each stream. -/
def decode : Wire → List Byte → Except DecodeError (Instr × List Byte)
  | .command, bytes => decodeCommand bytes
  | .payload n, bytes => decodePayload n bytes
  | .reply, bytes => decodeReply bytes

/-- `nd` ASCII digits of a value, most significant first (R66, R96). -/
def encodeDigits : Nat → Nat → List Byte
  | 0, _ => []
  | n + 1, v => encodeDigits n (v / 10) ++ [BitVec.ofNat 8 (0x30 + v % 10)]

/-- A format F1 message (R92): sentinel, selector, digits, ending byte. -/
def encodeSet (c : Selector) (a : Arg) : List Byte :=
  [sentinel, selectorByte c] ++ encodeDigits a.nd a.acc ++ [a.term]

/-- The bytes of an instruction, first sent first; events and foreground operations have none (R94, R95). -/
def encode : Instr → List Byte
  | .handshake => [sentinel, 0x23]
  | .setX a => encodeSet .x a
  | .setY a => encodeSet .y a
  | .setP a => encodeSet .p a
  | .setB a => encodeSet .b a
  | .setS a => encodeSet .s a
  | .setR a => encodeSet .r a
  | .setV a => encodeSet .v a
  | .start => [sentinel, 0x21]
  | .unknown b => [sentinel, b]
  | .payload bytes => bytes
  | .hsAck => [sentinel, 0x23]
  | .ack => [sentinel, 0x59]
  | .nak => [sentinel, 0x4E]
  | .lineReady => [sentinel, 0x44]
  | .err => [sentinel, 0x3F]
  | .pulseStart => []
  | .pulseEndNormal => []
  | .pulseEndFromTable => []
  | .pulseEndRaster => []
  | .armMove _ _ _ _ _ => []
  | .waitDone => []
  | .laserPreload _ => []
  | .laserEnable => []
  | .laserDisable => []
  | .rasterMove _ _ _ _ => []
  | .rampScan _ => []
  | .flatMove _ _ => []
  | .accelerate _ _ => []
  | .decelerate _ _ => []
  | .startJob => []
  | .readLine => []
  | .advanceSecondary => []

/-- The stream an instruction travels on, if it has an encoding at all (R90, R107). -/
def wireOf : Instr → Option Wire
  | .handshake => some .command
  | .setX _ => some .command
  | .setY _ => some .command
  | .setP _ => some .command
  | .setB _ => some .command
  | .setS _ => some .command
  | .setR _ => some .command
  | .setV _ => some .command
  | .start => some .command
  | .unknown _ => some .command
  | .payload bytes => some (.payload bytes.length)
  | .hsAck => some .reply
  | .ack => some .reply
  | .nak => some .reply
  | .lineReady => some .reply
  | .err => some .reply
  | .pulseStart => none
  | .pulseEndNormal => none
  | .pulseEndFromTable => none
  | .pulseEndRaster => none
  | .armMove _ _ _ _ _ => none
  | .waitDone => none
  | .laserPreload _ => none
  | .laserEnable => none
  | .laserDisable => none
  | .rasterMove _ _ _ _ => none
  | .rampScan _ => none
  | .flatMove _ _ => none
  | .accelerate _ _ => none
  | .decelerate _ _ => none
  | .startJob => none
  | .readLine => none
  | .advanceSecondary => none

/-- The set command an instruction is, with its argument. -/
def setParts : Instr → Option (Selector × Arg)
  | .setX a => some (.x, a)
  | .setY a => some (.y, a)
  | .setP a => some (.p, a)
  | .setB a => some (.b, a)
  | .setS a => some (.s, a)
  | .setR a => some (.r, a)
  | .setV a => some (.v, a)
  | _ => none

/-- Word `j` of a table word: bits `16j+15 .. 16j`. R107 puts the byte sent first in the high half of the word. -/
def tableWordBytes (w j : Nat) : List Byte :=
  [BitVec.ofNat 8 (w >>> (16 * j + 8)), BitVec.ofNat 8 (w >>> (16 * j))]

/-- The bytes of a table word in the order they are sent, out to the eight of the longest message (R92), every bit
above `nbits` zero. -/
def tableBytes (nbits w : Nat) : List Byte :=
  let v := w % 2 ^ nbits
  tableWordBytes v 0 ++ tableWordBytes v 1 ++ tableWordBytes v 2 ++ tableWordBytes v 3

/-- The instruction the device's decoder reads from a table word: the host-to-device channel is the one it decodes,
so a reply's byte pair is read as what it means when the host sends it (R99, R205). -/
def decodeTableWord (nbits w : Nat) : Option Instr :=
  match decodeCommand (tableBytes nbits w) with
  | .ok (i, _) => some i
  | .error _ => none

end Sys2Proof
end

