-- ==== Sys2Proof/WellFormed.lean ====
section
/-! DEFINITION. Which terms of `Instr` stand for a message or operation the spec describes. Operands that an
operation answers with a fault or an error reply (a zero step count, an out-of-range offset, a malformed argument)
are well formed: their meaning says what happens. -/

namespace Sys2Proof

/-- The argument is one the parser can have read (R92, R96, R97): at most five digits, a value those digits can
write, and an ending byte that does not continue the argument. -/
def Arg.wf (a : Arg) : Bool :=
  decide (a.nd ≤ Config.maxDigits) && decide (a.acc < 10 ^ a.nd) && !extendsArg a.nd a.term

/-- The argument carries a value: the delimiter ended it and it has a digit (R92, R97, R194). -/
def Arg.valid (a : Arg) : Bool := decide (a.term = delimiter) && decide (1 ≤ a.nd)

/-- A selector that makes a message UNKNOWN (R98, R205): none of `#`, `!` and the seven letters. -/
def unknownSelector (b : Byte) : Bool := (selectorOf b).isNone && b != 0x23 && b != 0x21

/-- Well-formed instructions. -/
def Instr.wf : Instr → Bool
  | .handshake => true
  | .setX a => a.wf
  | .setY a => a.wf
  | .setP a => a.wf
  | .setB a => a.wf
  | .setS a => a.wf
  | .setR a => a.wf
  | .setV a => a.wf
  | .start => true
  | .unknown b => unknownSelector b
  | .payload bytes => decide (1 ≤ bytes.length) && decide (bytes.length ≤ Config.maxParam)
  | .hsAck => true
  | .ack => true
  | .nak => true
  | .lineReady => true
  | .err => true
  | .pulseStart => true
  | .pulseEndNormal => true
  | .pulseEndFromTable => true
  | .pulseEndRaster => true
  | .armMove _ _ _ _ _ => true
  | .waitDone => true
  | .laserPreload _ => true
  | .laserEnable => true
  | .laserDisable => true
  | .rasterMove _ _ _ _ => true
  | .rampScan _ => true
  | .flatMove _ _ => true
  | .accelerate _ _ => true
  | .decelerate _ _ => true
  | .startJob => true
  | .readLine => true
  | .advanceSecondary => true

end Sys2Proof
end

