-- ==== Sys2Proof/Machine/Operands.lean ====
section
/-! DEFINITION. How operands become values: the numbers of the enumerations (R100), the start index of a move (R123),
the scanline index (R64), the direction of a line (R234), the length of a ramp (R166), and which register a set
command writes and what it accepts (R195). -/

namespace Sys2Proof.Machine

/-- The number of a `mc.mode` value (R21, R100). -/
def modeCode : ModeReg → BitVec 2
  | .normal => 0
  | .fromTable => 1
  | .raster => 2
  | .reserved => 3

/-- The number of a `mc.direction` value (R22, R100). -/
def directionCode : Direction → BitVec 1
  | .forward => 0
  | .reverse => 1

/-- The number of a `tmr.next` value (R100). -/
def eventCode : TimerEvent → BitVec 1
  | .pulseStart => 0
  | .pulseEnd => 1

/-- The number of an `axis` value (R100). -/
def axisCode : Axis → BitVec 1
  | .x => 0
  | .y => 1

/-- The number of a `phys_dir` value (R100). -/
def physDirCode : PhysDir → BitVec 1
  | .pos => 0
  | .neg => 1

/-- The number of a `ps.state` value (R100). -/
def parserStateCode : ParserState → BitVec 2
  | .awaitSentinel => 0
  | .awaitSelector => 1
  | .readArg => 2

/-- The register value `arm_move` writes for its mode operand (R123). -/
def modeReg : MoveMode → ModeReg
  | .normal => .normal
  | .fromTable => .fromTable
  | .raster => .raster

/-- The other counting direction. -/
def flipDirection : Direction → Direction
  | .forward => .reverse
  | .reverse => .forward

/-- The step index a move of `total` steps starts at (R123): 0 forward, `total - 1` in reverse. -/
def startIndex (dir : Direction) (total : U16) : U16 :=
  match dir with
  | .forward => 0
  | .reverse => total - 1

/-- The SCAN index of a step (R64): offset plus step index, as an unbounded sum. -/
def scanIndex (offset index : U16) : Nat := offset.toNat + index.toNat

/-- `line_dir(line)` (R234): the direction of line 0 on even lines, the other on odd ones. -/
def lineDir (first : Direction) (line : U16) : Direction :=
  if line.toNat % 2 = 0 then first else flipDirection first

/-- The physical sense of a scanline (R232): POS when its direction is FORWARD. -/
def physOf : Direction → PhysDir
  | .forward => .pos
  | .reverse => .neg

/-- `ramp_scan` (R166): the length of the longest prefix of the table whose delays are all at least `rate`. -/
def rampLength : List U16 → U16 → Nat
  | [], _ => 0
  | d :: ds, rate => if rate ≤ d then rampLength ds rate + 1 else 0

/-- The largest value a set command accepts (R195): SCAN_CAP for the two widths, 65535 for the others. -/
def setLimit (c : Params) : Selector → Nat
  | .x => c.scanCap.toNat
  | .y => Config.maxParam
  | .p => c.scanCap.toNat
  | .b => Config.maxParam
  | .s => Config.maxParam
  | .r => Config.maxParam
  | .v => Config.maxParam

/-- The JobParameters after a set command has written its register (R195). -/
def setRegister (v : U16) (j : JobParameters) : Selector → JobParameters
  | .x => { j with outWidth := v }
  | .y => { j with imageHeight := v }
  | .p => { j with pixelWidth := v }
  | .b => { j with backlash := v }
  | .s => { j with pitch := v }
  | .r => { j with rampLen := v }
  | .v => { j with velocity := v }

end Sys2Proof.Machine
end

