-- ==== Sys2Proof/Machine/Ops.lean ====
section
/-! DEFINITION. The shared operations over the memories, the streams and the registers. The block takes no trap and has
no saved context (R250, R258, R259): its two interrupt events are `pulseStartEvent` and `pulseEndEvent`, each one atomic
transition after which FOREGROUND goes on where it was. -/

namespace Sys2Proof.Machine

/-- What an operation answers. -/
abbrev Result := Host.Outcome State Fault Refusal

/-- Do `f` in the state `r` leaves, unless `r` stopped. -/
def andThen (r : Result) (f : State → Result) : Result :=
  match r with
  | .next s => f s
  | .fault e => .fault e
  | .refused e => .refused e

/-! ### SCAN -/

/-- The byte listed for element `i`, if it was ever written. -/
def Memory.read : Memory → Nat → Option Byte
  | [], _ => none
  | (a, b) :: m, i => if a = i then some b else Memory.read m i

/-- Store `b` in element `i`, keeping the indices rising. -/
def Memory.write : Memory → Nat → Byte → Memory
  | [], i, b => [(i, b)]
  | (a, c) :: m, i, b =>
    if i < a then (i, b) :: (a, c) :: m
    else if i = a then (i, b) :: m
    else (a, c) :: Memory.write m i b

/-- The canonical form: indices strictly rising. (An element not listed reads as no byte, so no listed entry equals it.) -/
def Memory.wf : Memory → Bool
  | [] => true
  | [_] => true
  | (a, _) :: (b, c) :: m => decide (a < b) && Memory.wf ((b, c) :: m)

/-- The byte a read of element `i` gives: the one written last, or a free value where none was (U9, D34). -/
def scanValue (i : Nat) (s : State) : Byte :=
  match s.scan.read i with
  | some b => b
  | none => Config.freeByte s.fresh

/-- Reading an element that nothing has written uses up one free value. -/
def scanTouch (i : Nat) (s : State) : State :=
  match s.scan.read i with
  | some _ => s
  | none => { s with fresh := s.fresh + 1 }

/-- `MemRead(SCAN, i, 1)` (R63): range check, then `f` with the byte. -/
def readScan (i : Nat) (f : Byte → State → Result) (s : State) : Result :=
  if i < s.cfg.scanCap.toNat then f (scanValue i s) (scanTouch i s)
  else .fault (.scanRange i s)

/-- `MemWrite(SCAN, i, 1, b)` by FOREGROUND (R63, R72): not during a move, then the range check. -/
def writeScan (i : Nat) (b : Byte) (s : State) : Result :=
  if s.running then .fault (.singleWriterScan s)
  else if i < s.cfg.scanCap.toNat then .next { s with scan := s.scan.write i b }
  else .fault (.scanRange i s)

/-! ### TABLE -/

/-- `MemRead(TABLE, i, 1)` (R61): range check, then `f` with the delay. -/
def readTable (i : Nat) (f : U16 → State → Result) (s : State) : Result :=
  match s.cfg.table[i]? with
  | some d => f d s
  | none => .fault (.tableRange i s)

/-! ### Streams -/

/-- `Tx(b0, b1)` (R13, R51). -/
def send (bytes : List Byte) (s : State) : State :=
  { s with tx := s.tx ++ bytes }

/-- Send a reply: its bytes are those of its encoding (R99). -/
def reply (i : Instr) (s : State) : State := send (encode i) s

/-- `ps.state <- AWAIT_SENTINEL`. -/
def toSentinel (s : State) : State :=
  { s with ps := { s.ps with state := .awaitSentinel } }

/-- `RxRead()` when no Timeout is taken (R191): the oldest byte is removed and used; with none, FOREGROUND holds. -/
def rxRead (f : Byte → State → Result) (s : State) : Result :=
  match s.rx with
  | [] => .next s
  | b :: rest => f b { s with rx := rest }

/-! ### Foreground control -/

/-- Put tasks before FOREGROUND's pending ones. -/
def push (ts : List Task) (s : State) : State :=
  { s with agenda := ts ++ s.agenda }

/-- In a job, the sequencer is now in this phase (R237); outside a job there is no phase to move. -/
def markPhase (p : JobPhase) (s : State) : State :=
  if s.job.phase = .none then s else { s with job := { s.job with phase := p } }

/-- Write the latches `axis` and `phys_dir` (R34, R71): not during a move. -/
def setLatches (a : Axis) (p : PhysDir) (s : State) : Result :=
  if s.running then .fault (.singleWriterLatch s)
  else .next { s with axis := a, physDir := p }

/-! ### Timer and moves -/

/-- `timer_program(d)` (R121): both compare registers, from a delay above the pulse width. -/
def timerProgram (d : U16) (s : State) : Result :=
  if d ≤ s.cfg.pulseWidth then .fault (.delayTooShort d s)
  else .next { s with tmr := { s.tmr with cmpStart := d, cmpEnd := d - s.cfg.pulseWidth } }

/-- Step 2 of `arm_move` (R123): MoveCommand populated, both compare registers programmed. -/
def populate (mode : MoveMode) (dir : Direction) (total delay offset : U16) (s : State) : State :=
  { s with
    mc :=
      { mode := modeReg mode, direction := dir, stepIndex := startIndex dir total, totalSteps := total,
        scanlineOffset := offset }
    tmr := { s.tmr with cmpStart := delay, cmpEnd := delay - s.cfg.pulseWidth } }

/-- `arm_move` (R123): the checks in the order of R257, then steps 2 and 3. A delay that is too short faults in step 2,
which leaves the state as it was before that step (R252). -/
def armMove (mode : MoveMode) (dir : Direction) (total delay offset : U16) (s : State) : Result :=
  if s.running then .fault (.rearm s)
  else if total = 0 then .fault (.zeroSteps s)
  else if delay ≤ s.cfg.pulseWidth then .fault (.delayTooShort delay s)
  else .next (launch (populate mode dir total delay offset s))

/-- `arm_move` followed by the `wait_done()` with which every operation ends a move (R170). -/
def moveAndWait (mode : MoveMode) (dir : Direction) (total delay offset : U16) (s : State) : Result :=
  andThen (armMove mode dir total delay offset s) fun t => .next (push [.wait] t)

/-- `flat_move(n, rate)` (R167). -/
def flatMove (n rate : U16) (s : State) : Result := moveAndWait .normal .forward n rate 0 s

/-- `ramp_scan(rate)` with its result in `job.k` (R166). -/
def scanRamp (rate : U16) (s : State) : State :=
  { s with job := { s.job with k := BitVec.ofNat 16 (rampLength s.cfg.table rate) } }

/-! ### The two interrupt events -/

/-- The pulse-start event (R124). -/
def pulseStartEvent (s : State) : State :=
  { s with
    stepOut := true
    pulses := s.pulses ++ [{ axis := s.axis, physDir := s.physDir, delay := s.tmr.cmpStart, laser := laserOut s }]
    tmr := { s.tmr with next := .pulseEnd } }

/-- `advance_forward` and `advance_reverse` (R126, R127): one up or one down, modulo 2^16. -/
def advanceIndex (mc : MoveCommand) : MoveCommand :=
  match mc.direction with
  | .forward => { mc with stepIndex := mc.stepIndex + 1 }
  | .reverse => { mc with stepIndex := mc.stepIndex - 1 }

/-- What every pulse-end event does first (R125): the step output falls, then the index moves. -/
def endPulse (s : State) : State :=
  { setStepOut false s with mc := advanceIndex s.mc }

/-- The pulse-end event (R125): end the pulse and advance, then complete, or dispatch and arm the next pulse-start. -/
def pulseEndEvent (dispatch : State → Result) (s : State) : Result :=
  if moveDone s.mc then .next (complete (endPulse s))
  else andThen (dispatch (endPulse s)) fun t => .next { t with tmr := { t.tmr with next := .pulseStart } }

/-- `dispatch_normal` (R129). -/
def dispatchNormal (s : State) : Result := .next s

/-- `dispatch_from_table` (R130): the delay of the new index. -/
def dispatchFromTable (s : State) : Result :=
  readTable s.mc.stepIndex.toNat timerProgram s

/-- `dispatch_raster` (R131): the duty of the new index. -/
def dispatchRaster (s : State) : Result :=
  readScan (scanIndex s.mc.scanlineOffset s.mc.stepIndex) (fun b t => .next { t with pwm := { t.pwm with duty := b } }) s

/-- The reserved mode (R132). -/
def dispatchReserved (s : State) : Result := .fault (.reservedMode s)

/-! ### Laser -/

/-- `laser_preload(v)` (R151): not during a move. -/
def preload (v : Byte) (s : State) : Result :=
  if s.running then .fault (.singleWriterDuty s)
  else .next { s with pwm := { s.pwm with duty := v } }

/-- `laser_enable()` and `laser_disable()` (R152, R153): not during a move. -/
def writeOutput (v : Bool) (s : State) : Result :=
  if s.running then .fault (.singleWriterOutput s)
  else .next (setOutput v s)

/-! ### Set commands and the start of a job -/

/-- A set command (R194, R195): a malformed argument is answered `#?`, a value out of range `#N`, any other is written
and answered `#Y`; the parser goes back to the sentinel scan. -/
def setCommand (c : Selector) (a : Arg) (s : State) : State :=
  if a.valid then
    if a.acc ≤ setLimit s.cfg c then
      toSentinel (reply .ack { s with jp := setRegister (BitVec.ofNat 16 a.acc) s.jp c })
    else toSentinel (reply .nak s)
  else toSentinel (reply .err s)

/-- Do the checks of `start_job()` answer `#N` (R231)? -/
def startRefused (s : State) : Bool :=
  decide (s.jp.outWidth = 0) || decide (s.jp.velocity ≤ s.cfg.pulseWidth)

/-- `job.phase <- NONE; ps.state <- AWAIT_SENTINEL`: how a job ends, finished or abandoned (R232, R233, R239). -/
def endJob (s : State) : State :=
  toSentinel { s with job := { s.job with phase := .none } }

/-- `start_job()` up to its first `#D` (R231, R232, R237): the checks, the acknowledgment, and the first phase of the
scanline loop; a job of no lines is over at once (R239). -/
def beginJob (s : State) : Result :=
  if startRefused s then .next (reply .nak s)
  else if s.jp.backlash ≠ 0 then .refused .backlash
  else if s.jp.imageHeight = 0 then
    .next (endJob { reply .ack s with job := { s.job with line := 0 } })
  else .next { reply .ack s with job := { s.job with line := 0, phase := .reqLine } }

/-- Store payload bytes one after another from `job.col` on (R233). -/
def storeLine : List Byte → State → Result
  | [], s => .next s
  | b :: bs, s =>
    andThen (writeScan s.job.col.toNat b s) fun t =>
      storeLine bs { t with job := { t.job with col := t.job.col + 1 } }

end Sys2Proof.Machine
end

