-- ==== Sys2Proof/Machine/Commands.lean ====
section
/-! DEFINITION. The meanings of the host-to-device messages (spec/43_command_protocol.md, section 2, and the payload of
spec/44_job_sequencer.md): what each does once its last byte has been consumed. -/

namespace Sys2Proof.Machine

/-- `HANDSHAKE` (R196): `##` is answered `##`. -/
def execHandshake (s : State) : Result := .next (toSentinel (reply .hsAck s))

/-- `SET_X` (R197). -/
def execSetX (a : Arg) (s : State) : Result := .next (setCommand .x a s)

/-- `SET_Y` (R198). -/
def execSetY (a : Arg) (s : State) : Result := .next (setCommand .y a s)

/-- `SET_P` (R199). -/
def execSetP (a : Arg) (s : State) : Result := .next (setCommand .p a s)

/-- `SET_B` (R200). -/
def execSetB (a : Arg) (s : State) : Result := .next (setCommand .b a s)

/-- `SET_S` (R201). -/
def execSetS (a : Arg) (s : State) : Result := .next (setCommand .s a s)

/-- `SET_R` (R202). -/
def execSetR (a : Arg) (s : State) : Result := .next (setCommand .r a s)

/-- `SET_V` (R203). -/
def execSetV (a : Arg) (s : State) : Result := .next (setCommand .v a s)

/-- `START` (R204): `start_job()`, and the parser back at the sentinel scan unless a scanline loop has begun, which
does that when it ends. -/
def execStart (s : State) : Result :=
  andThen (beginJob s) fun t =>
    .next (if startRefused s || decide (s.jp.imageHeight = 0) then toSentinel t else t)

/-- `UNKNOWN` (R205): answered `#?`, whatever the selector. -/
def execUnknown (_ : Byte) (s : State) : Result := .next (toSentinel (reply .err s))

/-- `PAYLOAD` (R233, R104): the bytes are stored uninterpreted from `SCAN[job.col]` on. -/
def execPayload (bytes : List Byte) (s : State) : Result := storeLine bytes s

end Sys2Proof.Machine
end

