-- ==== Sys2Proof/Machine/Events.lean ====
section
/-! DEFINITION. The meanings of the hardware events the ISR handles (spec/40_step_isr.md). An event that R122 does not
enable does not occur, and nothing changes (R120; log 6). -/

namespace Sys2Proof.Machine

/-- A pulse-end event of one mode: it occurs when the pulse-end event is enabled and `mc.mode` is that mode (R94, R125). -/
def pulseEndIn (mode : ModeReg) (dispatch : State → Result) (s : State) : Result :=
  if eventEnabled .pulseEnd s && decide (s.mc.mode = mode) then pulseEndEvent dispatch s else .next s

/-- `PULSE_START` (R124). -/
def execPulseStart (s : State) : Result :=
  if eventEnabled .pulseStart s then .next (pulseStartEvent s) else .next s

/-- `PULSE_END.NORMAL` (R129). -/
def execPulseEndNormal (s : State) : Result := pulseEndIn .normal dispatchNormal s

/-- `PULSE_END.FROM_TABLE` (R130). -/
def execPulseEndFromTable (s : State) : Result := pulseEndIn .fromTable dispatchFromTable s

/-- `PULSE_END.RASTER` (R131). -/
def execPulseEndRaster (s : State) : Result := pulseEndIn .raster dispatchRaster s

/-- The pulse-end event that finds the reserved mode (R132); it is no row of the opcode table. -/
def pulseEndReserved (s : State) : Result := pulseEndIn .reserved dispatchReserved s

end Sys2Proof.Machine
end

