-- ==== Sys2Proof/Machine/Job.lean ====
section
/-! DEFINITION. The operations of the job sequencer (spec/44_job_sequencer.md). -/

namespace Sys2Proof.Machine

/-- `start_job()` (R231). -/
def execStartJob (s : State) : Result := beginJob s

/-- `read_line()` (R233): reading begins at column 0. In a job FOREGROUND is then in phase READ_LINE (R237); outside
one it has the reading on its agenda. -/
def execReadLine (s : State) : Result :=
  if s.job.phase = .none then .next (push [.lineRead] { s with job := { s.job with col := 0 } })
  else .next { s with job := { s.job with col := 0, phase := .readLine } }

/-- `advance_secondary()` (R235): a flat move of `jp.pitch` steps of axis Y in the positive sense, or nothing. -/
def execAdvanceSecondary (s : State) : Result :=
  if s.jp.pitch = 0 then .next s
  else
    andThen (setLatches .y .pos s) fun t =>
      andThen (flatMove t.jp.pitch t.jp.velocity t) fun t => .next (markPhase .pitch t)

end Sys2Proof.Machine
end

