-- ==== Sys2Proof/Machine/Laser.lean ====
section
/-! DEFINITION. The Raster Laser Modulator (spec/41_laser_modulator.md). -/

namespace Sys2Proof.Machine

/-- `laser_preload(v)` (R151). -/
def execLaserPreload (v : Byte) (s : State) : Result := preload v s

/-- `laser_enable()` (R152). -/
def execLaserEnable (s : State) : Result := writeOutput true s

/-- `laser_disable()` (R153). -/
def execLaserDisable (s : State) : Result := writeOutput false s

/-- `raster_move(W, offset, dir, rate)` (R157): pre-load the first pixel, enable, arm, then wait and disable. -/
def execRasterMove (w offset : U16) (dir : Direction) (rate : U16) (s : State) : Result :=
  readScan (scanIndex offset (startIndex dir w))
    (fun first t =>
      andThen (preload first t) fun t =>
        andThen (writeOutput true t) fun t =>
          andThen (armMove .raster dir w rate offset t) fun t =>
            .next (push [.wait, .laserOff] (markPhase .raster t)))
    s

end Sys2Proof.Machine
end

