-- ==== Sys2Proof/Machine/Motion.lean ====
section
/-! DEFINITION. The foreground operations of the Motion State Machine (R123, R133). -/

namespace Sys2Proof.Machine

/-- `arm_move` (R123). -/
def execArmMove (mode : MoveMode) (dir : Direction) (total delay offset : U16) (s : State) : Result :=
  armMove mode dir total delay offset s

/-- `wait_done` (R133, R15): it returns when `running` is 0; until then FOREGROUND stays in it and nothing else changes. -/
def execWaitDone (s : State) : Result :=
  if s.running then .next (push [.wait] s) else .next s

end Sys2Proof.Machine
end

