-- ==== Sys2Proof/Machine/Ramp.lean ====
section
/-! DEFINITION. The Ramp Engine (spec/42_ramp_engine.md). An operation that waits does its steps up to the first wait
and leaves the rest on FOREGROUND's agenda (R74, R170; log 5). -/

namespace Sys2Proof.Machine

/-- `ramp_scan(rate)` (R166). -/
def execRampScan (rate : U16) (s : State) : Result := .next (scanRamp rate s)

/-- `flat_move(n, rate)` (R167). -/
def execFlatMove (n rate : U16) (s : State) : Result := flatMove n rate s

/-- `accelerate(rate, pad_steps)` (R168): scan, arm the ramp of `k + 1` steps from `TABLE[0]`, wait; the cruise follows. -/
def execAccelerate (rate padSteps : U16) (s : State) : Result :=
  readTable 0
    (fun d t =>
      andThen (armMove .fromTable .forward (t.job.k + 1) d 0 t) fun t =>
        .next (push [.wait, .cruise rate padSteps] (markPhase .accelRamp t)))
    (scanRamp rate s)

/-- The rest of `accelerate` (R168): when `k < pad_steps`, a flat move of the remaining steps. -/
def cruise (rate padSteps : U16) (s : State) : Result :=
  if s.job.k < padSteps then
    andThen (flatMove (padSteps - s.job.k) rate s) fun t => .next (markPhase .accelFlat t)
  else .next s

/-- The ramp of `decelerate` (R169): `k + 1` steps down from `TABLE[k]`, then wait. -/
def decelRamp (s : State) : Result :=
  readTable s.job.k.toNat
    (fun d t =>
      andThen (moveAndWait .fromTable .reverse (t.job.k + 1) d 0 t) fun t => .next (markPhase .decelRamp t))
    s

/-- `decelerate(rate, pad_steps)` (R169): scan; when `k < pad_steps`, a flat move of the remaining steps first; then the ramp. -/
def execDecelerate (rate padSteps : U16) (s : State) : Result :=
  if (scanRamp rate s).job.k < padSteps then
    andThen (armMove .normal .forward (padSteps - (scanRamp rate s).job.k) rate 0 (scanRamp rate s)) fun t =>
      .next (push [.wait, .decelRamp] (markPhase .decelFlat t))
  else decelRamp (scanRamp rate s)

end Sys2Proof.Machine
end

