-- ==== Sys2Proof/Machine/Replies.lean ====
section
/-! DEFINITION. The meanings of the device-to-host messages (R99, R206 to R210): each puts its two bytes on `tx`. When
one is sent is said by the commands and the sequencer that send it. -/

namespace Sys2Proof.Machine

/-- `HS_ACK` (R206). -/
def execHsAck (s : State) : Result := .next (reply .hsAck s)

/-- `ACK` (R207). -/
def execAck (s : State) : Result := .next (reply .ack s)

/-- `NAK` (R208). -/
def execNak (s : State) : Result := .next (reply .nak s)

/-- `LINE_READY` (R209). -/
def execLineReady (s : State) : Result := .next (reply .lineReady s)

/-- `ERR` (R210). -/
def execErr (s : State) : Result := .next (reply .err s)

end Sys2Proof.Machine
end

