-- ==== Sys2Proof/Machine/Dispatch.lean ====
section
/-! DEFINITION. Which meaning each instruction has: one arm per constructor. -/

namespace Sys2Proof.Machine

def exec (i : Instr) (s : State) : Host.Outcome State Fault Refusal :=
  match i with
  | .handshake => Sys2Proof.Machine.execHandshake s
  | .setX a => Sys2Proof.Machine.execSetX a s
  | .setY a => Sys2Proof.Machine.execSetY a s
  | .setP a => Sys2Proof.Machine.execSetP a s
  | .setB a => Sys2Proof.Machine.execSetB a s
  | .setS a => Sys2Proof.Machine.execSetS a s
  | .setR a => Sys2Proof.Machine.execSetR a s
  | .setV a => Sys2Proof.Machine.execSetV a s
  | .start => Sys2Proof.Machine.execStart s
  | .unknown sel => Sys2Proof.Machine.execUnknown sel s
  | .payload bytes => Sys2Proof.Machine.execPayload bytes s
  | .hsAck => Sys2Proof.Machine.execHsAck s
  | .ack => Sys2Proof.Machine.execAck s
  | .nak => Sys2Proof.Machine.execNak s
  | .lineReady => Sys2Proof.Machine.execLineReady s
  | .err => Sys2Proof.Machine.execErr s
  | .pulseStart => Sys2Proof.Machine.execPulseStart s
  | .pulseEndNormal => Sys2Proof.Machine.execPulseEndNormal s
  | .pulseEndFromTable => Sys2Proof.Machine.execPulseEndFromTable s
  | .pulseEndRaster => Sys2Proof.Machine.execPulseEndRaster s
  | .armMove mode dir total delay offset => Sys2Proof.Machine.execArmMove mode dir total delay offset s
  | .waitDone => Sys2Proof.Machine.execWaitDone s
  | .laserPreload v => Sys2Proof.Machine.execLaserPreload v s
  | .laserEnable => Sys2Proof.Machine.execLaserEnable s
  | .laserDisable => Sys2Proof.Machine.execLaserDisable s
  | .rasterMove w offset dir rate => Sys2Proof.Machine.execRasterMove w offset dir rate s
  | .rampScan rate => Sys2Proof.Machine.execRampScan rate s
  | .flatMove n rate => Sys2Proof.Machine.execFlatMove n rate s
  | .accelerate rate padSteps => Sys2Proof.Machine.execAccelerate rate padSteps s
  | .decelerate rate padSteps => Sys2Proof.Machine.execDecelerate rate padSteps s
  | .startJob => Sys2Proof.Machine.execStartJob s
  | .readLine => Sys2Proof.Machine.execReadLine s
  | .advanceSecondary => Sys2Proof.Machine.execAdvanceSecondary s

end Sys2Proof.Machine
end

