-- ==== Sys2Proof/Machine/Foreground.lean ====
section
/-! DEFINITION. The agents (R5): FOREGROUND, which is the command parser when no job runs (spec/43_command_protocol.md,
section 1) and the job sequencer when one does (R237); STEP_TIMER (R122); HOST (R52); and the Timeout of a bounded read
(R191). Each turn is one atomic step (R74). -/

namespace Sys2Proof.Machine

/-! ### The command parser -/

/-- AWAIT_SENTINEL with a byte that is not the sentinel (R192): `#?` when the parameter says so. -/
def badSentinel (s : State) : State :=
  if s.cfg.replyOnBadSentinel then toSentinel (reply .err s) else toSentinel s

/-- The parser consumes one byte (R192, R193, R194); the byte that ends a message has the message executed. -/
def parseByte (b : Byte) (s : State) : Result :=
  match s.ps.state with
  | .awaitSentinel =>
    if b = sentinel then .next { s with ps := { s.ps with state := .awaitSelector } }
    else .next (badSentinel s)
  | .awaitSelector =>
    match selectorOf b with
    | some c => .next { s with ps := { state := .readArg, cmd := c, acc := 0, nd := 0 } }
    | none => exec (shortInstr b) s
  | .readArg =>
    if extendsArg s.ps.nd b then
      .next { s with ps := { s.ps with acc := s.ps.acc * 10 + digitValue b, nd := s.ps.nd + 1 } }
    else exec (setInstr s.ps.cmd { nd := s.ps.nd, acc := s.ps.acc, term := b }) s

/-! ### The job sequencer -/

/-- The direction of the current scanline (R234). -/
def currentDir (s : State) : Direction := lineDir s.cfg.line0Dir s.job.line

/-- The line is not complete (R233): another byte is wanted. -/
def lineWanted (s : State) : Bool := decide (s.job.col < s.jp.outWidth)

/-- 'next line' of R237: the job ends after the last line. -/
def nextLine (s : State) : State :=
  if s.job.line + 1 = s.jp.imageHeight then endJob { s with job := { s.job with line := s.job.line + 1 } }
  else { s with job := { s.job with line := s.job.line + 1, phase := .reqLine } }

/-- The line is read (R232, R237): the latches for the scanline, then `accelerate`. -/
def beginScanline (s : State) : Result :=
  andThen (setLatches .x (physOf (currentDir s)) s) fun t => exec (.accelerate t.jp.velocity t.jp.rampLen) t

/-- The sequencer takes the oldest byte and stores it (R233). A store that faults leaves the state before this step (R252). -/
def readByte (s : State) : Result :=
  match s.rx with
  | [] => .next s
  | b :: rest => andThen (exec (.payload [b]) s) fun t => .next { t with rx := rest }

/-- What the sequencer does when the operation it called in this phase returns (R232, R237); the phases that wait for no
move have nothing to leave here. -/
def leavePhase (s : State) : Result :=
  match s.job.phase with
  | .none => .next s
  | .reqLine => .next s
  | .readLine => .next s
  | .accelRamp => exec (.rasterMove s.jp.outWidth 0 (currentDir s) s.jp.velocity) s
  | .accelFlat => exec (.rasterMove s.jp.outWidth 0 (currentDir s) s.jp.velocity) s
  | .raster => exec (.decelerate s.jp.velocity s.jp.rampLen) s
  | .decelFlat => if s.jp.pitch = 0 then .next (nextLine s) else exec .advanceSecondary s
  | .decelRamp => if s.jp.pitch = 0 then .next (nextLine s) else exec .advanceSecondary s
  | .pitch => .next (nextLine s)

/-- One step of FOREGROUND when no operation is pending: the parser outside a job, the sequencer in one (R190, R237). -/
def sequencerStep (s : State) : Result :=
  match s.job.phase with
  | .none => rxRead parseByte s
  | .reqLine => andThen (exec .lineReady s) fun t => exec .readLine t
  | .readLine => if lineWanted s then readByte s else beginScanline s
  | .accelRamp => leavePhase s
  | .accelFlat => leavePhase s
  | .raster => leavePhase s
  | .decelFlat => leavePhase s
  | .decelRamp => leavePhase s
  | .pitch => leavePhase s

/-! ### FOREGROUND -/

/-- Do a task; it has been taken off the agenda. The reading of a line goes byte by byte, in steps of its own. -/
def runTask (t : Task) (s : State) : Result :=
  match t with
  | .wait => exec .waitDone s
  | .laserOff => exec .laserDisable s
  | .cruise rate padSteps => cruise rate padSteps s
  | .decelRamp => decelRamp s
  | .lineRead => .next (push [.lineRead] s)

/-- FOREGROUND goes on with its pending tasks, all in one step, until it waits for a move or for a byte; with no task left
the phase of the job is left. So a phase that waits is left at the first step at which `running` is 0 (R237). -/
def resume : List Task → State → Result
  | [], s => leavePhase s
  | t :: rest, s =>
    andThen (runTask t { s with agenda := rest }) fun u =>
      if u.running || decide (t = .lineRead) then .next u else resume rest u

/-- One byte of a `read_line` outside a job; when the line is complete, what was pending before it (R233). -/
def lineReadStep (rest : List Task) (s : State) : Result :=
  if lineWanted s then readByte s else resume rest { s with agenda := rest }

/-- One atomic step of FOREGROUND: its pending tasks, else the sequencer or the parser. -/
def foregroundStep (s : State) : Result :=
  match s.agenda with
  | [] => sequencerStep s
  | t :: rest => if t = .lineRead then lineReadStep rest s else resume (t :: rest) s

/-! ### The other agents -/

/-- STEP_TIMER raises the enabled event (R122, R125), if one is enabled. -/
def timerStep (s : State) : Result :=
  if s.tmr.run then
    match s.tmr.next with
    | .pulseStart => exec .pulseStart s
    | .pulseEnd =>
      match s.mc.mode with
      | .normal => exec .pulseEndNormal s
      | .fromTable => exec .pulseEndFromTable s
      | .raster => exec .pulseEndRaster s
      | .reserved => pulseEndReserved s
  else .next s

/-- HOST appends a byte to the receive stream (R50, R52). -/
def hostStep (b : Byte) (s : State) : State := { s with rx := s.rx ++ [b] }

/-- A Timeout inside a framed message (R193, R194, R211). -/
def messageTimeout (s : State) : State := toSentinel (reply .err s)

/-- A Timeout inside a scanline (R233): the job is abandoned, or FOREGROUND goes on holding. -/
def lineTimeout (s : State) : State :=
  if s.cfg.lineTimeoutAborts then endJob { reply .nak s with agenda := [] } else s

/-- Is FOREGROUND reading a scanline (R233, R237)? -/
def readingLine (s : State) : Bool :=
  lineWanted s && (decide (s.agenda = [] ∧ s.job.phase = .readLine) || decide (s.agenda.head? = some .lineRead))

/-- Is the parser inside a framed message (R191)? -/
def insideMessage (s : State) : Bool :=
  decide (s.agenda = [] ∧ s.job.phase = .none ∧ s.ps.state ≠ .awaitSentinel)

/-- The bounded wait expires (R191): only with no byte available, and only in a bounded read. -/
def timeoutStep (s : State) : State :=
  if s.rx ≠ [] then s
  else if insideMessage s then messageTimeout s
  else if readingLine s then lineTimeout s
  else s

/-- One turn of the interleaving. -/
def takeTurn (t : Turn) (s : State) : Result :=
  match t with
  | .foreground => foregroundStep s
  | .timer => timerStep s
  | .host b => .next (hostStep b s)
  | .timeout => .next (timeoutStep s)

/-! ### Whose turn it is -/

/-- The enabled timer event has waited as long as it may (R122, R300): it occurs now. -/
def timerDue (s : State) : Bool := s.tmr.run && decide (Config.patience (s.tick - s.waited) ≤ s.waited)

/-- The free turn when none is prescribed: STEP_TIMER's when its event is due, any agent's otherwise (log 3). -/
def freeTurn (s : State) : Turn := if timerDue s then .timer else Config.freeTurn s.tick

/-- The turn the step takes. -/
def nextTurn (s : State) : Turn :=
  match s.turns with
  | t :: _ => t
  | [] => freeTurn s

/-- The state once the turn has been chosen: a prescribed turn is used up; a free one is counted, and so is an enabled
timer event's wait. -/
def afterChoice (s : State) : State :=
  match s.turns with
  | _ :: rest => { s with turns := rest }
  | [] =>
    { s with
      tick := s.tick + 1
      waited := if s.tmr.run && decide (freeTurn s ≠ .timer) then s.waited + 1 else 0 }

/-! ### Placing a message -/

/-- The parser just before the last byte of a message, with that byte and `rest` in the receive stream. -/
def atLastByte (i : Instr) (rest : List Byte) (s : State) : State :=
  match setParts i with
  | some (c, a) => { s with ps := { state := .readArg, cmd := c, acc := a.acc, nd := a.nd }, rx := a.term :: rest }
  | none => { s with ps := { s.ps with state := .awaitSelector }, rx := (encode i).drop 1 ++ rest }

/-- The bytes of a message placed so that FOREGROUND's next step executes it; bytes that are no message are placed as
fresh input of the sentinel scan. -/
def placeMessage (bytes : List Byte) (s : State) : State :=
  match decodeCommand bytes with
  | .ok (i, rest) => atLastByte i rest s
  | .error _ => { s with ps := { s.ps with state := .awaitSentinel }, rx := bytes }

/-- FOREGROUND is the command parser and has the next turn. -/
def parserTurn (s : State) : State :=
  { s with agenda := [], job := { s.job with phase := .none }, turns := .foreground :: s.turns }

end Sys2Proof.Machine
end

