-- ==== Sys2Proof/Machine/Step.lean ====
section
/-! DEFINITION. One step of the machine, and where an instruction of the opcode table is placed for it. -/

namespace Sys2Proof.Machine

/-- One atomic step of the agent whose turn it is (R74, R122; log 3). -/
def step (s : State) : Host.Outcome State Fault Refusal :=
  takeTurn (nextTurn s) (afterChoice s)

/-- `s` with the message of a table word in the receive stream, the parser about to consume its last byte, and
FOREGROUND to move next (log 7). -/
def State.withFetchWord (s : State) (nbits w : Nat) : State :=
  parserTurn (placeMessage (tableBytes nbits w) s)

end Sys2Proof.Machine
end

