-- ==== Sys2Proof/Safety.lean ====
section
/-! DEFINITION. What a good state and a good run are, in the terms the statements use: the invariants of the engine and of
the sequencer, quiescence, and the runs in which only the motion engine moves. -/

namespace Sys2Proof.Machine

/-- A run is quiescent (R301): no byte waits, the parser scans for a sentinel, no job, no move (and, in the model, no
foreground operation in progress). -/
abbrev Quiescent (s : State) : Prop :=
  s.rx = [] ∧ s.ps.state = .awaitSentinel ∧ s.job.phase = .none ∧ s.running = false ∧ s.agenda = []

/-- The invariants of the engine, whatever operation runs: the timer runs exactly during a move (R28); the PWM bits
agree (R152, R153); SCAN is in canonical form and inside its capacity (R63); the widths fit the buffer (R195); a partial
argument is within its digits (R42); during a move the index is below the total, the mode is one of the three, and the
compare registers are a pulse width apart (R135); and the step output is asserted exactly between the two events of a
step (R135, for the default FIRST_EVENT). -/
abbrev EngineInv (s : State) : Prop :=
  s.tmr.run = s.running ∧
  s.pwm.run = s.pwm.connected ∧
  (s.scan.wf = true ∧ ∀ c ∈ s.scan, c.1 < s.cfg.scanCap.toNat) ∧
  (s.jp.outWidth ≤ s.cfg.scanCap ∧ s.jp.pixelWidth ≤ s.cfg.scanCap) ∧
  (s.ps.state = .readArg → s.ps.nd ≤ 5 ∧ s.ps.acc < 10 ^ s.ps.nd) ∧
  (s.running = true →
    s.mc.mode ≠ .reserved ∧ s.mc.stepIndex < s.mc.totalSteps ∧ s.cfg.pulseWidth < s.tmr.cmpStart ∧
    s.tmr.cmpEnd = s.tmr.cmpStart - s.cfg.pulseWidth) ∧
  (s.cfg.firstEvent = .pulseStart → (s.stepOut = true ↔ s.running = true ∧ s.tmr.next = .pulseEnd))

/-- Which tasks FOREGROUND can have pending in each phase of a job (R237): in the phases that wait for a move, the wait and
what the operation does after it. -/
def agendaFits (jp : JobParameters) : JobPhase → List Task → Bool
  | .none, [] => true
  | .reqLine, [] => true
  | .readLine, [] => true
  | .accelRamp, [.wait, .cruise rate pad] => decide (rate = jp.velocity) && decide (pad = jp.rampLen)
  | .accelFlat, [.wait] => true
  | .raster, [.wait, .laserOff] => true
  | .decelFlat, [.wait, .decelRamp] => true
  | .decelRamp, [.wait] => true
  | .pitch, [.wait] => true
  | _, _ => false

/-- The mode of the move that is active in a phase (R237). -/
def phaseMode : JobPhase → Option ModeReg
  | .none => none
  | .reqLine => none
  | .readLine => none
  | .accelRamp => some .fromTable
  | .accelFlat => some .normal
  | .raster => some .raster
  | .decelFlat => some .normal
  | .decelRamp => some .fromTable
  | .pitch => some .normal

/-- A line is being drawn: its ramp has been scanned (R237). -/
def drawing : JobPhase → Bool
  | .none => false
  | .reqLine => false
  | .readLine => false
  | .accelRamp => true
  | .accelFlat => true
  | .raster => true
  | .decelFlat => true
  | .decelRamp => true
  | .pitch => true

/-- The invariants of a session: a block whose foreground operations are those the job sequencer calls. Parameters as R8
to R10 want them; the engine's invariants; FOREGROUND's pending tasks as the phase has them; a job's start checks still
true (R231) and its line within the image (R237); `job.k` the ramp length while a line is drawn; a move only while
FOREGROUND waits for it, of the phase's mode and extent (R237); the laser output connected only in the raster phase
(R156). -/
abbrev SessionInv (s : State) : Prop :=
  s.cfg.Valid ∧
  EngineInv s ∧
  agendaFits s.jp s.job.phase s.agenda = true ∧
  (s.job.phase ≠ .none →
    s.jp.outWidth ≠ 0 ∧ s.cfg.pulseWidth < s.jp.velocity ∧ s.jp.backlash = 0 ∧ s.job.line < s.jp.imageHeight) ∧
  (drawing s.job.phase = true → s.job.k.toNat = rampLength s.cfg.table s.jp.velocity) ∧
  (s.running = true →
    s.agenda.head? = some .wait ∧ phaseMode s.job.phase = some s.mc.mode ∧
    (s.mc.mode = .fromTable → s.mc.totalSteps.toNat = s.job.k.toNat + 1) ∧
    (s.mc.mode = .raster → s.mc.totalSteps = s.jp.outWidth ∧ s.mc.scanlineOffset = 0)) ∧
  (s.pwm.connected = true → s.job.phase = .raster)

/-- The step index a move leaves (R136). -/
def finalIndex : Direction → U16 → U16
  | .forward, total => total
  | .reverse, _ => 65535

/-- A pulse-end event now completes the move: forward, the next index is the total (R126); in reverse, the index is zero (R127). -/
abbrev CompletesAt (mc : MoveCommand) : Prop :=
  (mc.direction = .forward ∧ mc.stepIndex + 1 = mc.totalSteps) ∨ (mc.direction = .reverse ∧ mc.stepIndex = 0)

/-- A pulse-end event now moves the index to `index` and the move goes on (R126, R127). -/
abbrev GoesOnTo (mc : MoveCommand) (index : U16) : Prop :=
  (mc.direction = .forward ∧ index = mc.stepIndex + 1 ∧ index ≠ mc.totalSteps) ∨
  (mc.direction = .reverse ∧ mc.stepIndex ≠ 0 ∧ index = mc.stepIndex - 1)

/-- The state a completing pulse-end event leaves (R128, R136). -/
def completed (s : State) : State :=
  { s with
    stepOut := false
    mc := { s.mc with stepIndex := finalIndex s.mc.direction s.mc.totalSteps }
    tmr := { s.tmr with run := false }
    running := false }

/-- One step in which this agent has the turn. -/
def stepAs (t : Turn) (s : State) : Result := step { s with turns := t :: s.turns }

/-- `n` steps of STEP_TIMER. -/
def timerRun : Nat → State → Result
  | 0, s => .next s
  | n + 1, s => andThen (stepAs .timer s) (timerRun n)

/-- `n` steps of FOREGROUND. -/
def foregroundRun : Nat → State → Result
  | 0, s => .next s
  | n + 1, s => andThen (stepAs .foreground s) (foregroundRun n)

/-- The agent that can move when the host is silent: STEP_TIMER during a move, FOREGROUND otherwise. -/
def engineTurn (s : State) : Turn := if s.tmr.run then .timer else .foreground

/-- `n` steps of the block by itself: the timer during a move, FOREGROUND otherwise. -/
def engineRun : Nat → State → Result
  | 0, s => .next s
  | n + 1, s => andThen (stepAs (engineTurn s) s) (engineRun n)

/-- The records of pulses with these delays and one laser intensity (R48). -/
def pulsesAt (s : State) (laser : Byte) (delays : List U16) : List Pulse :=
  delays.map fun d => { axis := s.axis, physDir := s.physDir, delay := d, laser := laser }

/-- The records of a raster move at one delay with these intensities (R157). -/
def rasterPulses (s : State) (delay : U16) (pixels : List Byte) : List Pulse :=
  pixels.map fun b => { axis := s.axis, physDir := s.physDir, delay := delay, laser := b }

/-- The delays of an accelerating ramp call (R168): the table up to index `k`, then the flat move. -/
def accelDelays (table : List U16) (rate padSteps : U16) : List U16 :=
  table.take (rampLength table rate + 1) ++ List.replicate (padSteps.toNat - rampLength table rate) rate

end Sys2Proof.Machine
end

