-- ==== Sys2Proof/Certificates/Slice0/Obligations.lean ====
section
/-! DEFINITION. The statements for the provers. Each says in its docstring which rule of spec/ it formalises. -/

open Sys2Proof Sys2Proof.Machine

/-! ### Encoding -/

/-- R91 to R99, R103: on each stream, the decoder gives back every well-formed message from its bytes, and leaves the
bytes after it. -/
def Obligations.DecodeInvertsEncode : Prop :=
  ∀ (i : Instr) (w : Wire) (rest : List Byte),
    i.wf = true → wireOf i = some w → decode w (encode i ++ rest) = .ok (i, rest)

/-- R91, R92, R98, R103: whatever the command channel's decoder accepts is well formed, and its bytes are those of its
encoding, so each byte sequence has one meaning. -/
def Obligations.AcceptedBytesAreTheEncoding : Prop :=
  ∀ (bytes rest : List Byte) (i : Instr),
    decodeCommand bytes = .ok (i, rest) → i.wf = true ∧ wireOf i = some .command ∧ bytes = encode i ++ rest

/-- R98, R99, R101: some words written out from the tables, and bytes that are no message. -/
def Obligations.WrittenWordsDecode : Prop :=
  decodeCommand [0x23, 0x23] = .ok (.handshake, []) ∧
  decodeCommand [0x23, 0x21] = .ok (.start, []) ∧
  decodeCommand [0x23, 0x58, 0x31, 0x30, 0x30, 0x30, 0x3B] = .ok (.setX ⟨4, 1000, 0x3B⟩, []) ∧
  decodeCommand [0x23, 0x56, 0x39, 0x39, 0x39, 0x39, 0x39, 0x3B] = .ok (.setV ⟨5, 99999, 0x3B⟩, []) ∧
  decodeCommand [0x23, 0x58, 0x61, 0x62] = .ok (.setX ⟨0, 0, 0x61⟩, [0x62]) ∧
  decodeCommand [0x23, 0x51] = .ok (.unknown 0x51, []) ∧
  decodeCommand [0x58, 0x35] = .error (.badSentinel 0x58) ∧
  decodeReply [0x23, 0x44] = .ok (.lineReady, []) ∧
  decodeTableWord 16 0x2321 = some .start

/-! ### A step runs the decoded instruction -/

/-- R192 to R194 against R98 and R103: from the sentinel scan, the byte-by-byte parser goes through the bytes of a message
without any other effect and then executes exactly the instruction the decoder reads, with the bytes after the message
still in the receive stream (that the meaning of a message begins after its last byte is log 19). -/
def Obligations.ParserExecutesWhatTheDecoderReads : Prop :=
  ∀ (s : State) (i : Instr) (bytes rest : List Byte),
    s.agenda = [] → s.job.phase = .none → s.ps.state = .awaitSentinel → s.rx = bytes →
    decodeCommand bytes = .ok (i, rest) →
    ∃ (last : Byte) (p : Parser),
      (∀ c a, setParts i = some (c, a) → p = { state := .readArg, cmd := c, acc := a.acc, nd := a.nd }) ∧
      (setParts i = none → p = { s.ps with state := .awaitSelector }) ∧
      foregroundRun ((encode i).length - 1) s = .next { s with ps := p, rx := last :: rest } ∧
      stepAs .foreground { s with ps := p, rx := last :: rest } = exec i { s with ps := p, rx := rest }

/-- R193, R194, R122, R125, R133: a step is the meaning of the instruction that is due. FOREGROUND, with the last byte of a
message, executes that message; STEP_TIMER executes the enabled event, the pulse-end event being the one of `mc.mode`; a
pending wait or laser-off is executed, and once no move is active FOREGROUND goes on with what is pending after it. That the
step takes the turn away is the model's (log 3), and so are FOREGROUND's pending tasks (log 5). -/
def Obligations.StepRunsTheInstruction : Prop :=
  (∀ (s : State) (b : Byte) (rest : List Byte) (ts : List Turn),
    s.turns = .foreground :: ts → s.agenda = [] → s.job.phase = .none → s.rx = b :: rest →
    (s.ps.state = .awaitSelector → selectorOf b = none →
      step s = exec (shortInstr b) { s with turns := ts, rx := rest }) ∧
    (s.ps.state = .readArg → (isDigit b = false ∨ 5 ≤ s.ps.nd) →
      step s =
        exec (setInstr s.ps.cmd { nd := s.ps.nd, acc := s.ps.acc, term := b }) { s with turns := ts, rx := rest })) ∧
  (∀ (s : State) (ts : List Turn),
    s.turns = .timer :: ts → s.tmr.run = true →
    (s.tmr.next = .pulseStart → step s = exec .pulseStart { s with turns := ts }) ∧
    (s.tmr.next = .pulseEnd → s.mc.mode = .normal → step s = exec .pulseEndNormal { s with turns := ts }) ∧
    (s.tmr.next = .pulseEnd → s.mc.mode = .fromTable → step s = exec .pulseEndFromTable { s with turns := ts }) ∧
    (s.tmr.next = .pulseEnd → s.mc.mode = .raster → step s = exec .pulseEndRaster { s with turns := ts })) ∧
  (∀ (s : State) (rest : List Task) (ts : List Turn),
    s.turns = .foreground :: ts →
    (s.agenda = .wait :: rest → s.running = true →
      step s = exec .waitDone { s with turns := ts, agenda := rest }) ∧
    (s.agenda = .wait :: rest → s.running = false →
      step s = andThen (exec .waitDone { s with turns := ts, agenda := rest }) (resume rest)) ∧
    (s.agenda = .laserOff :: rest → s.running = false →
      step s = andThen (exec .laserDisable { s with turns := ts, agenda := rest }) (resume rest)))

/-- The word of an opcode-table row, placed for the fetch, is what the next step executes (R107; placement: log 7). -/
def Obligations.PlacedWordIsExecuted : Prop :=
  ∀ (s : State) (w : Nat) (i : Instr),
    decodeTableWord 16 w = some i →
    ∃ (p : Parser) (rest : List Byte),
      (∀ b ∈ rest, b = 0) ∧
      (∀ c a, setParts i = some (c, a) → p = { state := .readArg, cmd := c, acc := a.acc, nd := a.nd }) ∧
      (setParts i = none → p = { s.ps with state := .awaitSelector }) ∧
      step (s.withFetchWord 16 w) =
        exec i { s with agenda := [], job := { s.job with phase := .none }, ps := p, rx := rest }

/-! ### Host-to-device messages -/

/-- R196: the handshake is answered `##` and nothing but `ps.state` and `tx` changes. -/
def Obligations.HandshakeIsEchoed : Prop :=
  ∀ s : State,
    exec .handshake s = .next { s with tx := s.tx ++ [0x23, 0x23], ps := { s.ps with state := .awaitSentinel } }

/-- R195: a well-formed argument is validated. In range it is written to the command's own register and acknowledged
`#Y`; out of range it is rejected `#N` and no register changes; in both cases nothing else but `ps.state` changes. -/
def Obligations.SetCommandsValidateTheirArgument : Prop :=
  ∀ (a : Arg) (s : State), a.term = 0x3B → 1 ≤ a.nd →
    (a.acc ≤ s.cfg.scanCap.toNat →
      exec (.setX a) s =
        .next { s with
          jp := { s.jp with outWidth := BitVec.ofNat 16 a.acc }, tx := s.tx ++ [0x23, 0x59],
          ps := { s.ps with state := .awaitSentinel } } ∧
      exec (.setP a) s =
        .next { s with
          jp := { s.jp with pixelWidth := BitVec.ofNat 16 a.acc }, tx := s.tx ++ [0x23, 0x59],
          ps := { s.ps with state := .awaitSentinel } }) ∧
    (s.cfg.scanCap.toNat < a.acc →
      ∀ i ∈ [Instr.setX a, .setP a],
        exec i s = .next { s with tx := s.tx ++ [0x23, 0x4E], ps := { s.ps with state := .awaitSentinel } }) ∧
    (a.acc ≤ 65535 →
      exec (.setY a) s =
        .next { s with
          jp := { s.jp with imageHeight := BitVec.ofNat 16 a.acc }, tx := s.tx ++ [0x23, 0x59],
          ps := { s.ps with state := .awaitSentinel } } ∧
      exec (.setB a) s =
        .next { s with
          jp := { s.jp with backlash := BitVec.ofNat 16 a.acc }, tx := s.tx ++ [0x23, 0x59],
          ps := { s.ps with state := .awaitSentinel } } ∧
      exec (.setS a) s =
        .next { s with
          jp := { s.jp with pitch := BitVec.ofNat 16 a.acc }, tx := s.tx ++ [0x23, 0x59],
          ps := { s.ps with state := .awaitSentinel } } ∧
      exec (.setR a) s =
        .next { s with
          jp := { s.jp with rampLen := BitVec.ofNat 16 a.acc }, tx := s.tx ++ [0x23, 0x59],
          ps := { s.ps with state := .awaitSentinel } } ∧
      exec (.setV a) s =
        .next { s with
          jp := { s.jp with velocity := BitVec.ofNat 16 a.acc }, tx := s.tx ++ [0x23, 0x59],
          ps := { s.ps with state := .awaitSentinel } }) ∧
    (65535 < a.acc →
      ∀ i ∈ [Instr.setY a, .setB a, .setS a, .setR a, .setV a],
        exec i s = .next { s with tx := s.tx ++ [0x23, 0x4E], ps := { s.ps with state := .awaitSentinel } })

/-- R194, R97: a set command whose argument has no digit or ends with a byte other than the delimiter is answered `#?`,
and nothing but `ps.state` and `tx` changes. -/
def Obligations.MalformedArgumentIsAnsweredErr : Prop :=
  ∀ (c : Selector) (a : Arg) (s : State), (a.term ≠ 0x3B ∨ a.nd = 0) →
    exec (setInstr c a) s = .next { s with tx := s.tx ++ [0x23, 0x3F], ps := { s.ps with state := .awaitSentinel } }

/-- R194, digit by digit: in READ_ARG a digit byte, when fewer than five have been read, joins the accumulator most
significant first, and nothing is sent. -/
def Obligations.DigitJoinsTheArgument : Prop :=
  ∀ (s : State) (b : Byte) (rest : List Byte),
    s.agenda = [] → s.job.phase = .none → s.ps.state = .readArg → s.rx = b :: rest →
    0x30#8 ≤ b → b ≤ 0x39#8 → s.ps.nd < 5 →
    stepAs .foreground s =
      .next { s with rx := rest, ps := { s.ps with acc := s.ps.acc * 10 + (b.toNat - 0x30), nd := s.ps.nd + 1 } }

/-- R205: an unknown selector is answered `#?`. -/
def Obligations.UnknownSelectorIsAnsweredErr : Prop :=
  ∀ (sel : Byte) (s : State),
    exec (.unknown sel) s = .next { s with tx := s.tx ++ [0x23, 0x3F], ps := { s.ps with state := .awaitSentinel } }

/-- R192: in the sentinel scan, with no job and no operation in progress, FOREGROUND waits while no byte has come, the
sentinel opens a message, and any other byte is consumed and answered `#?` exactly when REPLY_ON_BAD_SENTINEL; nothing
else changes. -/
def Obligations.SentinelScan : Prop :=
  ∀ s : State, s.agenda = [] → s.job.phase = .none → s.ps.state = .awaitSentinel →
    (s.rx = [] → stepAs .foreground s = .next s) ∧
    ∀ (b : Byte) (rest : List Byte), s.rx = b :: rest →
      (b = 0x23 → stepAs .foreground s = .next { s with rx := rest, ps := { s.ps with state := .awaitSelector } }) ∧
      (b ≠ 0x23 → s.cfg.replyOnBadSentinel = true →
        stepAs .foreground s = .next { s with rx := rest, tx := s.tx ++ [0x23, 0x3F] }) ∧
      (b ≠ 0x23 → s.cfg.replyOnBadSentinel = false → stepAs .foreground s = .next { s with rx := rest })

/-- R231, R204: the start checks. A zero width or a velocity not above the pulse width is answered `#N` and nothing else
changes (`#!` also ends its message); a job with backlash is refused; otherwise `#Y` is sent, and the scanline loop begins
with line 0, or is over at once when the image has no lines (R232, R237). What `ps.state` is meanwhile is log 17; that the
step ends at the first phase is log 5. -/
def Obligations.StartChecksTheJob : Prop :=
  ∀ s : State,
    ((s.jp.outWidth = 0 ∨ s.jp.velocity ≤ s.cfg.pulseWidth) →
      exec .startJob s = .next { s with tx := s.tx ++ [0x23, 0x4E] } ∧
      exec .start s = .next { s with tx := s.tx ++ [0x23, 0x4E], ps := { s.ps with state := .awaitSentinel } }) ∧
    (s.jp.outWidth ≠ 0 → s.cfg.pulseWidth < s.jp.velocity →
      (s.jp.backlash ≠ 0 → exec .startJob s = .refused .backlash ∧ exec .start s = .refused .backlash) ∧
      (s.jp.backlash = 0 → s.jp.imageHeight ≠ 0 →
        ∀ i ∈ [Instr.start, .startJob],
          exec i s =
            .next { s with tx := s.tx ++ [0x23, 0x59], job := { s.job with line := 0, phase := .reqLine } }) ∧
      (s.jp.backlash = 0 → s.jp.imageHeight = 0 →
        ∀ i ∈ [Instr.start, .startJob],
          exec i s =
            .next { s with
              tx := s.tx ++ [0x23, 0x59], job := { s.job with line := 0, phase := .none },
              ps := { s.ps with state := .awaitSentinel } }))

/-- R233, R104: payload bytes are stored uninterpreted, in order, from `SCAN[job.col]` on; every other element reads as
before, and nothing else but `job.col` changes. -/
def Obligations.PayloadIsStoredInOrder : Prop :=
  ∀ (bytes : List Byte) (s : State),
    s.running = false → s.job.col.toNat + bytes.length ≤ s.cfg.scanCap.toNat →
    ∃ t, exec (.payload bytes) s = .next t ∧
      (∀ j, j < bytes.length → t.scan.read (s.job.col.toNat + j) = bytes[j]?) ∧
      (∀ i, (i < s.job.col.toNat ∨ s.job.col.toNat + bytes.length ≤ i) → t.scan.read i = s.scan.read i) ∧
      t.job.col.toNat = s.job.col.toNat + bytes.length ∧
      t = { s with scan := t.scan, job := { s.job with col := t.job.col } }

/-- R63, R72, R157: the ScanlineBuffer accesses that fault: storing a payload byte during a move or outside the buffer, and
reading the first pixel of a raster move outside the buffer, which happens before the laser is touched. The fault leaves the
state as it was (R252). Where a store meets both faults the single-writer one comes first, and a raster move during a move
reads its pixel first: that order is the model's (log 9). -/
def Obligations.ScanAccessesThatFault : Prop :=
  (∀ (b : Byte) (bs : List Byte) (s : State),
    (s.running = true → exec (.payload (b :: bs)) s = .fault (.singleWriterScan s)) ∧
    (s.running = false → s.cfg.scanCap.toNat ≤ s.job.col.toNat →
      exec (.payload (b :: bs)) s = .fault (.scanRange s.job.col.toNat s))) ∧
  (∀ (s : State) (w offset rate : U16) (dir : Direction) (first : Nat),
    w ≠ 0 → first = offset.toNat + (match dir with | .forward => 0 | .reverse => w.toNat - 1) →
    s.cfg.scanCap.toNat ≤ first →
    exec (.rasterMove w offset dir rate) s = .fault (.scanRange first s))

/-- R215: a command that is answered `#?` or `#N` changes only `ps.*` and `tx`. -/
def Obligations.RejectedCommandsChangeOnlyTheParser : Prop :=
  ∀ (i : Instr) (s t : State),
    wireOf i = some .command → exec i s = .next t →
    (t.tx = s.tx ++ [0x23, 0x3F] ∨ t.tx = s.tx ++ [0x23, 0x4E]) →
    t = { s with ps := t.ps, tx := t.tx }

/-! ### Replies and the streams -/

/-- R99: the two bytes of each reply. -/
def Obligations.RepliesSendTheirBytes : Prop :=
  ∀ s : State,
    exec .hsAck s = .next { s with tx := s.tx ++ [0x23, 0x23] } ∧
    exec .ack s = .next { s with tx := s.tx ++ [0x23, 0x59] } ∧
    exec .nak s = .next { s with tx := s.tx ++ [0x23, 0x4E] } ∧
    exec .lineReady s = .next { s with tx := s.tx ++ [0x23, 0x44] } ∧
    exec .err s = .next { s with tx := s.tx ++ [0x23, 0x3F] }

/-- R51: the device only ever appends to the transmit stream. -/
def Obligations.TransmitStreamOnlyGrows : Prop :=
  ∀ s t : State, step s = .next t → ∃ bytes, t.tx = s.tx ++ bytes

/-- R50, R52: the HOST's turn appends its byte to the receive stream and does nothing else. -/
def Obligations.HostOnlyAppends : Prop :=
  ∀ (s : State) (b : Byte), stepAs (.host b) s = .next { s with rx := s.rx ++ [b] }

/-- R191, R211, R233: a Timeout. Inside a framed message, with no byte available, it is answered `#?` and ends the message.
Inside a scanline it abandons the job with `#N`, or, when LINE_TIMEOUT_ABORTS is false, FOREGROUND goes on waiting; a
`read_line` that no job called is treated alike (the model's reading, log 11). In every other state, and whenever a byte is
available, it changes nothing. -/
def Obligations.TimeoutEndsABoundedRead : Prop :=
  ∀ s : State,
    (s.rx = [] → s.agenda = [] → s.job.phase = .none → s.ps.state ≠ .awaitSentinel →
      stepAs .timeout s =
        .next { s with tx := s.tx ++ [0x23, 0x3F], ps := { s.ps with state := .awaitSentinel } }) ∧
    (s.rx = [] → s.job.col < s.jp.outWidth →
      ((s.agenda = [] ∧ s.job.phase = .readLine) ∨ s.agenda.head? = some .lineRead) →
      (s.cfg.lineTimeoutAborts = true →
        stepAs .timeout s =
          .next { s with
            tx := s.tx ++ [0x23, 0x4E], job := { s.job with phase := .none },
            ps := { s.ps with state := .awaitSentinel }, agenda := [] }) ∧
      (s.cfg.lineTimeoutAborts = false → stepAs .timeout s = .next s)) ∧
    (s.rx ≠ [] → stepAs .timeout s = .next s) ∧
    (¬(s.agenda = [] ∧ s.job.phase = .none ∧ s.ps.state ≠ .awaitSentinel) →
      ¬(s.job.col < s.jp.outWidth ∧
        ((s.agenda = [] ∧ s.job.phase = .readLine) ∨ s.agenda.head? = some .lineRead)) →
      stepAs .timeout s = .next s)

/-! ### Events -/

/-- R124: the pulse-start event asserts the step output, records the pulse and makes the pulse-end event the next one;
it touches no MoveCommand field and not `running`. -/
def Obligations.PulseStartAssertsAndRecords : Prop :=
  ∀ s : State, s.tmr.run = true → s.tmr.next = .pulseStart →
    exec .pulseStart s =
      .next { s with
        stepOut := true
        pulses :=
          s.pulses ++
            [{ axis := s.axis, physDir := s.physDir, delay := s.tmr.cmpStart,
               laser := if s.pwm.connected = true ∧ s.pwm.run = true then s.pwm.duty else 0 }]
        tmr := { s.tmr with next := .pulseEnd } }

/-- R126, R127, R128, R136: the completing pulse-end event, in each mode: the step output falls, the timer stops and
`running` clears; the index is the total after a FORWARD move and 65535 after a REVERSE one; no register of the
modulator, no compare register and no memory is written. -/
def Obligations.PulseEndCompletesTheMove : Prop :=
  ∀ (i : Instr) (m : ModeReg) (s : State),
    (i, m) ∈ [(Instr.pulseEndNormal, ModeReg.normal), (.pulseEndFromTable, .fromTable), (.pulseEndRaster, .raster)] →
    s.tmr.run = true → s.tmr.next = .pulseEnd → s.mc.mode = m →
    (s.mc.direction = .forward → s.mc.stepIndex + 1 = s.mc.totalSteps →
      exec i s =
        .next { s with
          stepOut := false, mc := { s.mc with stepIndex := s.mc.totalSteps }, tmr := { s.tmr with run := false },
          running := false }) ∧
    (s.mc.direction = .reverse → s.mc.stepIndex = 0 →
      exec i s =
        .next { s with
          stepOut := false, mc := { s.mc with stepIndex := 65535 }, tmr := { s.tmr with run := false },
          running := false })

/-- R129: the pulse-end event of a NORMAL move: the step output falls and the index moves by one; when the move goes on the
next event is the pulse-start and nothing else changes; otherwise the move is complete. -/
def Obligations.PulseEndNormalOnlyCounts : Prop :=
  ∀ s : State, s.tmr.run = true → s.tmr.next = .pulseEnd → s.mc.mode = .normal →
    (CompletesAt s.mc → exec .pulseEndNormal s = .next (completed s)) ∧
    ∀ index, GoesOnTo s.mc index →
      exec .pulseEndNormal s =
        .next { s with
          stepOut := false, mc := { s.mc with stepIndex := index }, tmr := { s.tmr with next := .pulseStart } }

/-- R130: the pulse-end event of a FROM_TABLE move: when the move goes on, both compare registers are reprogrammed from the
table entry of the NEW index; an index outside the table and an entry not above the pulse width fault, with the step output
fallen and the index advanced (R252). The completing event looks nothing up. -/
def Obligations.PulseEndFromTableReprograms : Prop :=
  ∀ s : State, s.tmr.run = true → s.tmr.next = .pulseEnd → s.mc.mode = .fromTable →
    (CompletesAt s.mc → exec .pulseEndFromTable s = .next (completed s)) ∧
    ∀ index, GoesOnTo s.mc index →
      (∀ d, s.cfg.table[index.toNat]? = some d →
        (s.cfg.pulseWidth < d →
          exec .pulseEndFromTable s =
            .next { s with
              stepOut := false, mc := { s.mc with stepIndex := index }
              tmr := { run := true, cmpStart := d, cmpEnd := d - s.cfg.pulseWidth, next := .pulseStart } }) ∧
        (d ≤ s.cfg.pulseWidth →
          exec .pulseEndFromTable s =
            .fault (.delayTooShort d { s with stepOut := false, mc := { s.mc with stepIndex := index } }))) ∧
      (s.cfg.table.length ≤ index.toNat →
        exec .pulseEndFromTable s =
          .fault (.tableRange index.toNat { s with stepOut := false, mc := { s.mc with stepIndex := index } }))

/-- R131, R64: the pulse-end event of a RASTER move: when the move goes on, the duty is rewritten from SCAN at offset plus the
NEW index, an unbounded sum; the compare registers keep their values; an index outside the buffer faults, with the step
output fallen and the index advanced (R252). The completing event writes no duty. An element that nothing has written gives a free value (U9,
D34), and the model's counter of them moves (the model's own, log 4). -/
def Obligations.PulseEndRasterRewritesTheDuty : Prop :=
  ∀ s : State, s.tmr.run = true → s.tmr.next = .pulseEnd → s.mc.mode = .raster →
    (CompletesAt s.mc → exec .pulseEndRaster s = .next (completed s)) ∧
    ∀ index, GoesOnTo s.mc index →
      (s.mc.scanlineOffset.toNat + index.toNat < s.cfg.scanCap.toNat →
        (∀ b, s.scan.read (s.mc.scanlineOffset.toNat + index.toNat) = some b →
          exec .pulseEndRaster s =
            .next { s with
              stepOut := false, mc := { s.mc with stepIndex := index }, pwm := { s.pwm with duty := b },
              tmr := { s.tmr with next := .pulseStart } }) ∧
        (s.scan.read (s.mc.scanlineOffset.toNat + index.toNat) = none →
          ∃ b, exec .pulseEndRaster s =
            .next { s with
              stepOut := false, mc := { s.mc with stepIndex := index }, pwm := { s.pwm with duty := b },
              tmr := { s.tmr with next := .pulseStart }, fresh := s.fresh + 1 })) ∧
      (s.cfg.scanCap.toNat ≤ s.mc.scanlineOffset.toNat + index.toNat →
        exec .pulseEndRaster s =
          .fault
            (.scanRange (s.mc.scanlineOffset.toNat + index.toNat)
              { s with stepOut := false, mc := { s.mc with stepIndex := index } }))

/-- R132: a pulse-end event that finds the reserved mode faults when the move goes on, with the step output fallen and the
index advanced (R252). -/
def Obligations.ReservedModeFaults : Prop :=
  ∀ (s : State) (index : U16),
    s.tmr.run = true → s.tmr.next = .pulseEnd → s.mc.mode = .reserved → GoesOnTo s.mc index →
    stepAs .timer s = .fault (.reservedMode { s with stepOut := false, mc := { s.mc with stepIndex := index } })

/-- R120, R122: while the timer is stopped its turn changes nothing; and (the model's choice, log 6) the meaning of an event
that is not the enabled one leaves the state as it is. -/
def Obligations.OnlyEnabledEventsOccur : Prop :=
  ∀ s : State,
    (s.tmr.run = false → stepAs .timer s = .next s) ∧
    (s.tmr.run = false ∨ s.tmr.next = .pulseEnd → exec .pulseStart s = .next s) ∧
    (s.tmr.run = false ∨ s.tmr.next = .pulseStart →
      exec .pulseEndNormal s = .next s ∧ exec .pulseEndFromTable s = .next s ∧ exec .pulseEndRaster s = .next s)

/-- R47, the ISR's column: an event writes only `mc.step_index`, `running`, `tmr.*`, `step_out`, `pwm.duty` and the ghost
list (and the model's counter of free bytes); it never touches the other fields of MoveCommand, the latches, the PWM bits,
the parameters, the parser, the sequencer, the streams or SCAN. -/
def Obligations.EventsKeepTheirSideOfTheSingleWriterRule : Prop :=
  ∀ (s t : State), stepAs .timer s = .next t →
    t =
      { s with
        mc := { s.mc with stepIndex := t.mc.stepIndex }, running := t.running, tmr := t.tmr, stepOut := t.stepOut,
        pwm := { s.pwm with duty := t.pwm.duty }, pulses := t.pulses, fresh := t.fresh }

/-- R71, R72, R47: FOREGROUND's side of the single-writer rule. Whatever FOREGROUND does while a move is active, it leaves
MoveCommand, the timer, the modulator, the latches, `running`, `step_out` and SCAN as they are. -/
def Obligations.ForegroundOnlyReadsDuringAMove : Prop :=
  ∀ (s t : State), s.running = true → stepAs .foreground s = .next t →
    t.mc = s.mc ∧ t.tmr = s.tmr ∧ t.pwm = s.pwm ∧ t.axis = s.axis ∧ t.physDir = s.physDir ∧ t.running = true ∧
    t.stepOut = s.stepOut ∧ t.scan = s.scan ∧ t.pulses = s.pulses

/-! ### Moves -/

/-- R123, R257, R252: `arm_move`. The faults in their order, which leave the state as it was; otherwise MoveCommand populated
with its start index, both compare registers programmed, timer and `running` set, and nothing else changed. That a
DelayTooShort, which R123 raises in the step that populates MoveCommand, leaves MoveCommand as it was is the model's reading
(log 13). -/
def Obligations.ArmMoveStartsTheMove : Prop :=
  ∀ (mode : MoveMode) (dir : Direction) (total delay offset : U16) (s : State),
    (s.running = true → exec (.armMove mode dir total delay offset) s = .fault (.rearm s)) ∧
    (s.running = false → total = 0 → exec (.armMove mode dir total delay offset) s = .fault (.zeroSteps s)) ∧
    (s.running = false → total ≠ 0 → delay ≤ s.cfg.pulseWidth →
      exec (.armMove mode dir total delay offset) s = .fault (.delayTooShort delay s)) ∧
    (s.running = false → total ≠ 0 → s.cfg.pulseWidth < delay →
      exec (.armMove mode dir total delay offset) s =
        .next { s with
          mc :=
            { mode := (match mode with | .normal => .normal | .fromTable => .fromTable | .raster => .raster)
              direction := dir
              stepIndex := (match dir with | .forward => 0 | .reverse => total - 1)
              totalSteps := total
              scanlineOffset := offset }
          tmr := { run := true, cmpStart := delay, cmpEnd := delay - s.cfg.pulseWidth, next := s.cfg.firstEvent }
          running := true })

/-- R133, R15: `wait_done` returns at once when no move is active; during a move FOREGROUND stays in it, turn after turn,
and writes nothing. When the wait lifts, FOREGROUND goes on in that same step with what is pending after it, and outside a
job with nothing pending only the wait is gone. Where a pending wait is held is the model's (log 5). -/
def Obligations.WaitDoneHoldsDuringAMove : Prop :=
  ∀ s : State,
    (s.running = false → exec .waitDone s = .next s) ∧
    (s.running = true → exec .waitDone s = .next { s with agenda := .wait :: s.agenda }) ∧
    (∀ rest, s.agenda = .wait :: rest →
      (s.running = true → stepAs .foreground s = .next s) ∧
      (s.running = false → stepAs .foreground s = resume rest { s with agenda := rest }) ∧
      (s.running = false → rest = [] → s.job.phase = .none → stepAs .foreground s = .next { s with agenda := [] }))

/-- R129, R134, R136: a NORMAL move of `T` steps, armed from an idle engine, emits exactly `T` pulses at its delay in `2T`
events, whichever way it counts, and is then idle with the index of R136. -/
def Obligations.NormalMoveEmitsItsPulses : Prop :=
  ∀ (s : State) (dir : Direction) (total delay offset : U16),
    s.running = false → s.stepOut = false → s.cfg.firstEvent = .pulseStart → total ≠ 0 → s.cfg.pulseWidth < delay →
    ∃ t, exec (.armMove .normal dir total delay offset) s = .next t ∧
      timerRun (2 * total.toNat) t =
        .next { s with
          mc :=
            { mode := .normal, direction := dir, stepIndex := finalIndex dir total, totalSteps := total,
              scanlineOffset := offset }
          tmr := { run := false, cmpStart := delay, cmpEnd := delay - s.cfg.pulseWidth, next := .pulseEnd }
          pulses := s.pulses ++ pulsesAt s (laserOut s) (List.replicate total.toNat delay) }

/-- R130, R134: a FROM_TABLE move of `T` steps, `T` within the table, armed with the delay of its start index, emits `T`
pulses with the delays `TABLE[0 .. T-1]`, in that order FORWARD and in the opposite order REVERSE, and is then idle. -/
def Obligations.TableMoveEmitsTheTable : Prop :=
  ∀ (s : State) (dir : Direction) (total delay offset : U16),
    s.cfg.Valid → s.running = false → s.cfg.firstEvent = .pulseStart →
    total ≠ 0 → total.toNat ≤ s.cfg.table.length →
    s.cfg.table[(startIndex dir total).toNat]? = some delay →
    ∃ t u, exec (.armMove .fromTable dir total delay offset) s = .next t ∧ timerRun (2 * total.toNat) t = .next u ∧
      u.pulses =
        s.pulses ++
          pulsesAt s (laserOut s)
            (match dir with
              | .forward => s.cfg.table.take total.toNat
              | .reverse => (s.cfg.table.take total.toNat).reverse) ∧
      u.running = false ∧ u.tmr.run = false ∧ u.stepOut = false ∧
      u.mc = { mode := .fromTable, direction := dir, stepIndex := finalIndex dir total, totalSteps := total,
               scanlineOffset := offset } ∧
      u = { s with mc := u.mc, tmr := u.tmr, stepOut := u.stepOut, pulses := u.pulses }

/-! ### Laser -/

/-- R151, R152, R153: pre-load, enable and disable, and their single-writer faults. -/
def Obligations.LaserOperations : Prop :=
  ∀ (s : State) (v : Byte),
    (s.running = false →
      exec (.laserPreload v) s = .next { s with pwm := { s.pwm with duty := v } } ∧
      exec .laserEnable s = .next { s with pwm := { s.pwm with run := true, connected := true } } ∧
      exec .laserDisable s = .next { s with pwm := { s.pwm with run := false, connected := false } }) ∧
    (s.running = true →
      exec (.laserPreload v) s = .fault (.singleWriterDuty s) ∧
      exec .laserEnable s = .fault (.singleWriterOutput s) ∧
      exec .laserDisable s = .fault (.singleWriterOutput s))

/-- R157, R155: `raster_move` up to its wait: the first pixel (the last entry of the segment for REVERSE) is in the duty
register, the output is connected, the move is armed; the wait and the `laser_disable` are FOREGROUND's next tasks. A first
pixel that nothing has written is a free value (log 4); FOREGROUND's tasks are the model's own (log 5). -/
def Obligations.RasterMoveBeginsWithTheFirstPixel : Prop :=
  ∀ (s : State) (w offset rate : U16) (dir : Direction) (first : Nat),
    s.running = false → w ≠ 0 → offset.toNat + w.toNat ≤ s.cfg.scanCap.toNat → s.cfg.pulseWidth < rate →
    first = offset.toNat + (match dir with | .forward => 0 | .reverse => w.toNat - 1) →
    ∃ (b : Byte) (n : Nat),
      (∀ c, s.scan.read first = some c → b = c ∧ n = s.fresh) ∧
      (s.scan.read first = none → n = s.fresh + 1) ∧
      exec (.rasterMove w offset dir rate) s =
        .next { s with
          pwm := { duty := b, run := true, connected := true }
          mc :=
            { mode := .raster, direction := dir
              stepIndex := (match dir with | .forward => 0 | .reverse => w - 1)
              totalSteps := w, scanlineOffset := offset }
          tmr := { run := true, cmpStart := rate, cmpEnd := rate - s.cfg.pulseWidth, next := s.cfg.firstEvent }
          running := true
          job := if s.job.phase = .none then s.job else { s.job with phase := .raster }
          agenda := .wait :: .laserOff :: s.agenda
          fresh := n }

/-- R157, R131: a raster move over `W` written elements draws exactly those `W` pixels, in order FORWARD and mirrored
REVERSE, every pulse with the laser on at its pixel. When the wait lifts the laser is off and FOREGROUND goes on with what it
had pending before the call (held on the agenda, log 5), with every byte of SCAN as it was. -/
def Obligations.RasterMoveDrawsTheScanline : Prop :=
  ∀ (s : State) (w offset rate : U16) (dir : Direction) (pixels : List Byte),
    s.running = false → s.cfg.firstEvent = .pulseStart → w ≠ 0 → s.cfg.pulseWidth < rate →
    offset.toNat + w.toNat ≤ s.cfg.scanCap.toNat → pixels.length = w.toNat →
    (∀ j, j < w.toNat → s.scan.read (offset.toNat + j) = pixels[j]?) →
    ∃ t u v, exec (.rasterMove w offset dir rate) s = .next t ∧ timerRun (2 * w.toNat) t = .next u ∧
      stepAs .foreground u = resume s.agenda v ∧
      v.pulses = s.pulses ++ rasterPulses s rate (match dir with | .forward => pixels | .reverse => pixels.reverse) ∧
      v.running = false ∧ v.tmr.run = false ∧ v.stepOut = false ∧ laserOut v = 0 ∧ v.pwm.run = false ∧
      v.pwm.connected = false ∧ v.mc.stepIndex = finalIndex dir w ∧
      v.job = (if s.job.phase = .none then s.job else { s.job with phase := .raster }) ∧
      v = { s with
              mc := v.mc, tmr := v.tmr, stepOut := v.stepOut, pwm := v.pwm, pulses := v.pulses, job := v.job }

/-! ### Ramps -/

/-- R166: `ramp_scan` finds the largest prefix of the table whose delays are all at least the rate, and writes nothing but
`job.k`. -/
def Obligations.RampScanFindsTheLargestPrefix : Prop :=
  ∀ (s : State) (rate : U16), s.cfg.table.length ≤ 65534 →
    ∃ k, exec (.rampScan rate) s = .next { s with job := { s.job with k := BitVec.ofNat 16 k } } ∧
      k ≤ s.cfg.table.length ∧
      (∀ j, j < k → ∃ d, s.cfg.table[j]? = some d ∧ rate ≤ d) ∧
      (k < s.cfg.table.length → ∃ d, s.cfg.table[k]? = some d ∧ d < rate)

/-- R167, R123, R252: `flat_move` arms a NORMAL FORWARD move and waits for it; its faults are those of `arm_move`, in their
order, and leave the state as it was. Where the wait is held is the model's (log 5), and that a DelayTooShort leaves
MoveCommand as it was is the model's reading (log 13). -/
def Obligations.FlatMoveArmsAndWaits : Prop :=
  ∀ (s : State) (n rate : U16),
    (s.running = false → n ≠ 0 → s.cfg.pulseWidth < rate →
      exec (.flatMove n rate) s =
        .next { s with
          mc := { mode := .normal, direction := .forward, stepIndex := 0, totalSteps := n, scanlineOffset := 0 }
          tmr := { run := true, cmpStart := rate, cmpEnd := rate - s.cfg.pulseWidth, next := s.cfg.firstEvent }
          running := true
          agenda := .wait :: s.agenda }) ∧
    (s.running = true → exec (.flatMove n rate) s = .fault (.rearm s)) ∧
    (s.running = false → n = 0 → exec (.flatMove n rate) s = .fault (.zeroSteps s)) ∧
    (s.running = false → n ≠ 0 → rate ≤ s.cfg.pulseWidth →
      exec (.flatMove n rate) s = .fault (.delayTooShort rate s))

/-- R168: `accelerate` up to its first wait: the scan result in `job.k`, the FROM_TABLE FORWARD move of `k + 1` steps armed
with `TABLE[0]`, and the wait and the cruise as FOREGROUND's next tasks (the model's own, log 5). -/
def Obligations.AccelerateArmsTheRamp : Prop :=
  ∀ (s : State) (rate padSteps d k : U16),
    s.running = false → s.cfg.table.length ≤ 65534 → s.cfg.table[0]? = some d → s.cfg.pulseWidth < d →
    k = BitVec.ofNat 16 (rampLength s.cfg.table rate) →
    exec (.accelerate rate padSteps) s =
      .next { s with
        mc := { mode := .fromTable, direction := .forward, stepIndex := 0, totalSteps := k + 1, scanlineOffset := 0 }
        tmr := { run := true, cmpStart := d, cmpEnd := d - s.cfg.pulseWidth, next := s.cfg.firstEvent }
        running := true
        job := if s.job.phase = .none then { s.job with k := k } else { s.job with k := k, phase := .accelRamp }
        agenda := .wait :: .cruise rate padSteps :: s.agenda }

/-- R169: `decelerate` up to its first wait: with `k < pad_steps` the flat move of the remaining steps, the ramp being
FOREGROUND's task after it; otherwise the FROM_TABLE REVERSE ramp of `k + 1` steps from `TABLE[k]` at once. The tasks are
the model's own (log 5). -/
def Obligations.DecelerateArmsItsFirstMove : Prop :=
  ∀ (s : State) (rate padSteps k : U16),
    s.running = false → s.cfg.table.length ≤ 65534 → k = BitVec.ofNat 16 (rampLength s.cfg.table rate) →
    (k < padSteps → s.cfg.pulseWidth < rate →
      exec (.decelerate rate padSteps) s =
        .next { s with
          mc :=
            { mode := .normal, direction := .forward, stepIndex := 0, totalSteps := padSteps - k, scanlineOffset := 0 }
          tmr := { run := true, cmpStart := rate, cmpEnd := rate - s.cfg.pulseWidth, next := s.cfg.firstEvent }
          running := true
          job := if s.job.phase = .none then { s.job with k := k } else { s.job with k := k, phase := .decelFlat }
          agenda := .wait :: .decelRamp :: s.agenda }) ∧
    (padSteps ≤ k → ∀ d, s.cfg.table[k.toNat]? = some d → s.cfg.pulseWidth < d →
      exec (.decelerate rate padSteps) s =
        .next { s with
          mc := { mode := .fromTable, direction := .reverse, stepIndex := k, totalSteps := k + 1, scanlineOffset := 0 }
          tmr := { run := true, cmpStart := d, cmpEnd := d - s.cfg.pulseWidth, next := s.cfg.firstEvent }
          running := true
          job := if s.job.phase = .none then { s.job with k := k } else { s.job with k := k, phase := .decelRamp }
          agenda := .wait :: s.agenda })

/-- R168, R170, R174: a whole `accelerate`. When the scan ends inside the table, the block by itself finishes the call
without a fault: the pulses are the table up to index `k` and then the flat move at the rate, `max(k, pad_steps) + 1` of
them; the engine is then idle, and FOREGROUND's next step goes on with what it had pending before the call (held on the
agenda, log 5). -/
def Obligations.AccelerateEmitsRampThenCruise : Prop :=
  ∀ (s : State) (rate padSteps : U16),
    s.cfg.Valid → s.cfg.firstEvent = .pulseStart → s.running = false → s.cfg.pulseWidth < rate →
    rampLength s.cfg.table rate < s.cfg.table.length →
    ∃ t n u, exec (.accelerate rate padSteps) s = .next t ∧ engineRun n t = .next u ∧
      stepAs .foreground u = resume s.agenda { u with agenda := s.agenda } ∧
      u.pulses = s.pulses ++ pulsesAt s (laserOut s) (accelDelays s.cfg.table rate padSteps) ∧
      (accelDelays s.cfg.table rate padSteps).length = max (rampLength s.cfg.table rate) padSteps.toNat + 1 ∧
      u.running = false ∧ u.tmr.run = false ∧ u.stepOut = false ∧
      u.job.k.toNat = rampLength s.cfg.table rate ∧ (s.job.phase = .none → u.job.phase = .none) ∧
      u = { s with
              mc := u.mc, tmr := u.tmr, stepOut := u.stepOut, pulses := u.pulses, agenda := u.agenda,
              job := { s.job with k := u.job.k, phase := u.job.phase } }

/-- R169, R170, R174: a whole `decelerate`: the mirror image of `accelerate`, the flat move first and then the table from
index `k` down; FOREGROUND's next step goes on with what it had pending before the call (held on the agenda, log 5). -/
def Obligations.DecelerateEmitsCruiseThenRamp : Prop :=
  ∀ (s : State) (rate padSteps : U16),
    s.cfg.Valid → s.cfg.firstEvent = .pulseStart → s.running = false → s.cfg.pulseWidth < rate →
    rampLength s.cfg.table rate < s.cfg.table.length →
    ∃ t n u, exec (.decelerate rate padSteps) s = .next t ∧ engineRun n t = .next u ∧
      stepAs .foreground u = resume s.agenda { u with agenda := s.agenda } ∧
      u.pulses = s.pulses ++ pulsesAt s (laserOut s) (accelDelays s.cfg.table rate padSteps).reverse ∧
      u.running = false ∧ u.tmr.run = false ∧ u.stepOut = false ∧
      u.job.k.toNat = rampLength s.cfg.table rate ∧ u.mc.stepIndex = 65535 ∧
      u.job.phase = (if s.job.phase = .none then .none else .decelRamp) ∧
      u = { s with
              mc := u.mc, tmr := u.tmr, stepOut := u.stepOut, pulses := u.pulses, agenda := u.agenda,
              job := { s.job with k := u.job.k, phase := u.job.phase } }

/-- R172: a rate that every table entry reaches. `accelerate` emits the whole table and then faults in the ISR at index
`N_TABLE`; `decelerate` faults at `TABLE[N_TABLE]` before its ramp, at once or after the flat move that comes first. The
ISR's fault leaves the fallen step output and the advanced index, as R252 says. That `decelerate`'s fault leaves the scan
result in `job.k`, which an earlier step of the operation wrote, is the model's reading (log 13), and that what was pending
is on the agenda is the model's (log 5). -/
def Obligations.ExhaustedTableFaults : Prop :=
  ∀ (s : State) (rate padSteps n : U16),
    s.cfg.Valid → s.running = false → rampLength s.cfg.table rate = s.cfg.table.length →
    n.toNat = s.cfg.table.length →
    (s.cfg.firstEvent = .pulseStart →
      ∃ t u, exec (.accelerate rate padSteps) s = .next t ∧ t.mc.totalSteps = n + 1 ∧
        timerRun (2 * n.toNat - 1) t = .next u ∧
        u.pulses = s.pulses ++ pulsesAt s (laserOut s) s.cfg.table ∧
        stepAs .timer u =
          .fault (.tableRange n.toNat { u with stepOut := false, mc := { u.mc with stepIndex := n } })) ∧
    (padSteps ≤ n →
      exec (.decelerate rate padSteps) s = .fault (.tableRange n.toNat { s with job := { s.job with k := n } })) ∧
    (n < padSteps → s.cfg.pulseWidth < rate → s.cfg.firstEvent = .pulseStart →
      ∃ t u, exec (.decelerate rate padSteps) s = .next t ∧ timerRun (2 * (padSteps - n).toNat) t = .next u ∧
        u.pulses = s.pulses ++ pulsesAt s (laserOut s) (List.replicate (padSteps - n).toNat rate) ∧
        stepAs .foreground u = .fault (.tableRange n.toNat { u with agenda := s.agenda }))

/-! ### The job sequencer -/

/-- R233, R237: `read_line` begins at column 0; in a job FOREGROUND is then in phase READ_LINE, outside one the reading is
its next task (the model's own, log 5). -/
def Obligations.ReadLineBeginsAtColumnZero : Prop :=
  ∀ s : State,
    (s.job.phase ≠ .none →
      exec .readLine s = .next { s with job := { s.job with col := 0, phase := .readLine } }) ∧
    (s.job.phase = .none →
      exec .readLine s = .next { s with job := { s.job with col := 0 }, agenda := .lineRead :: s.agenda })

/-- R233, R213: reading a line consumes exactly `jp.out_width` bytes, whatever they are, stores the i-th in `SCAN[i]`, and
neither sends anything nor executes a command; the bytes after them stay in `rx`, and the other elements of SCAN read as
before. -/
def Obligations.ReadLineConsumesExactlyTheLine : Prop :=
  ∀ (s : State) (bytes rest : List Byte),
    s.agenda = [] → s.job.phase = .readLine → s.job.col = 0 → s.running = false →
    s.jp.outWidth ≤ s.cfg.scanCap → s.rx = bytes ++ rest → bytes.length = s.jp.outWidth.toNat →
    ∃ t, foregroundRun s.jp.outWidth.toNat s = .next t ∧
      (∀ i, i < bytes.length → t.scan.read i = bytes[i]?) ∧
      (∀ i, bytes.length ≤ i → t.scan.read i = s.scan.read i) ∧
      t = { s with scan := t.scan, rx := rest, job := { s.job with col := s.jp.outWidth } }

/-- R235: `advance_secondary`: nothing for a zero pitch; else the latches to Y and POS and a flat move of `jp.pitch` steps
at `jp.velocity`, in a job in phase PITCH (R237). Where its wait is held is the model's (log 5). -/
def Obligations.AdvanceSecondaryMovesByThePitch : Prop :=
  ∀ s : State,
    (s.jp.pitch = 0 → exec .advanceSecondary s = .next s) ∧
    (s.jp.pitch ≠ 0 → s.running = false → s.cfg.pulseWidth < s.jp.velocity →
      exec .advanceSecondary s =
        .next { s with
          axis := .y, physDir := .pos
          mc :=
            { mode := .normal, direction := .forward, stepIndex := 0, totalSteps := s.jp.pitch, scanlineOffset := 0 }
          tmr :=
            { run := true, cmpStart := s.jp.velocity, cmpEnd := s.jp.velocity - s.cfg.pulseWidth,
              next := s.cfg.firstEvent }
          running := true
          job := if s.job.phase = .none then s.job else { s.job with phase := .pitch }
          agenda := .wait :: s.agenda })

/-- R232, R234, R237: the rows of the phase table. A phase that waits for a move is left at the first step at which `running`
is 0, and that one step does all the row says: request and read a line; set the latches by the parity of the line and
accelerate; arm the flat or start the raster move; disable the laser and decelerate; arm the ramp; advance the secondary
axis. What an operation does after its wait is held on the agenda (log 5). -/
def Obligations.SequencerCallsTheOperations : Prop :=
  ∀ (s : State) (dir : Direction),
    dir =
      (if s.job.line.toNat % 2 = 0 then s.cfg.line0Dir
        else match s.cfg.line0Dir with | .forward => .reverse | .reverse => .forward) →
    (s.job.phase = .reqLine → s.agenda = [] →
      stepAs .foreground s =
        .next { s with tx := s.tx ++ [0x23, 0x44], job := { s.job with col := 0, phase := .readLine } }) ∧
    (s.job.phase = .readLine → s.agenda = [] → s.jp.outWidth ≤ s.job.col → s.running = false →
      stepAs .foreground s =
        exec (.accelerate s.jp.velocity s.jp.rampLen)
          { s with axis := .x, physDir := (match dir with | .forward => .pos | .reverse => .neg) }) ∧
    (∀ rate padSteps, s.job.phase = .accelRamp → s.agenda = [.wait, .cruise rate padSteps] → s.running = false →
      (s.job.k < padSteps → s.cfg.pulseWidth < rate →
        stepAs .foreground s =
          .next { s with
            mc :=
              { mode := .normal, direction := .forward, stepIndex := 0, totalSteps := padSteps - s.job.k,
                scanlineOffset := 0 }
            tmr := { run := true, cmpStart := rate, cmpEnd := rate - s.cfg.pulseWidth, next := s.cfg.firstEvent }
            running := true, job := { s.job with phase := .accelFlat }, agenda := [.wait] }) ∧
      (padSteps ≤ s.job.k →
        stepAs .foreground s = exec (.rasterMove s.jp.outWidth 0 dir s.jp.velocity) { s with agenda := [] })) ∧
    (s.job.phase = .accelFlat → s.agenda = [.wait] → s.running = false →
      stepAs .foreground s = exec (.rasterMove s.jp.outWidth 0 dir s.jp.velocity) { s with agenda := [] }) ∧
    (s.job.phase = .raster → s.agenda = [.wait, .laserOff] → s.running = false →
      stepAs .foreground s =
        exec (.decelerate s.jp.velocity s.jp.rampLen)
          { s with agenda := [], pwm := { s.pwm with run := false, connected := false } }) ∧
    (∀ d, s.job.phase = .decelFlat → s.agenda = [.wait, .decelRamp] → s.running = false →
      s.cfg.table.length ≤ 65534 → s.cfg.table[s.job.k.toNat]? = some d → s.cfg.pulseWidth < d →
      stepAs .foreground s =
        .next { s with
          mc :=
            { mode := .fromTable, direction := .reverse, stepIndex := s.job.k, totalSteps := s.job.k + 1,
              scanlineOffset := 0 }
          tmr := { run := true, cmpStart := d, cmpEnd := d - s.cfg.pulseWidth, next := s.cfg.firstEvent }
          running := true, job := { s.job with phase := .decelRamp }, agenda := [.wait] }) ∧
    (s.job.phase = .decelRamp → s.agenda = [.wait] → s.running = false → s.jp.pitch ≠ 0 →
      stepAs .foreground s = exec .advanceSecondary { s with agenda := [] })

/-- R237 'next line', R239: after the last line the job is over, silently, and the parser scans for a sentinel; before it
the next line is requested. It comes at the step at which the wait for the pitch move lifts, or the wait for the ramp when
the pitch is zero (the wait being held on the agenda, log 5). -/
def Obligations.NextLineOrEndOfJob : Prop :=
  ∀ s : State, s.agenda = [.wait] → s.running = false →
    (s.job.phase = .pitch ∨ (s.job.phase = .decelRamp ∧ s.jp.pitch = 0)) →
    (s.job.line + 1 = s.jp.imageHeight →
      stepAs .foreground s =
        .next { s with
          job := { s.job with line := s.job.line + 1, phase := .none }
          ps := { s.ps with state := .awaitSentinel }
          agenda := [] }) ∧
    (s.job.line + 1 ≠ s.jp.imageHeight →
      stepAs .foreground s =
        .next { s with job := { s.job with line := s.job.line + 1, phase := .reqLine }, agenda := [] })

/-- R232: a whole scanline. From a state that meets the engine's invariants, with a line that has been read and a velocity
that ends the ramp inside the table, the block by itself, without a fault, emits the accelerating ramp and its flat, the
pixels of the line with the laser at each, the flat and the decelerating ramp, all on axis X in the sense of the line's
parity, and then the pitch on axis Y; the laser is off again and FOREGROUND asks for the next line or the job is over. -/
def Obligations.ScanlineIsDrawn : Prop :=
  ∀ (s : State) (pixels : List Byte) (dir : Direction) (x y : State),
    s.cfg.Valid → EngineInv s → s.cfg.firstEvent = .pulseStart → s.running = false → s.pwm.connected = false →
    s.agenda = [] → s.job.phase = .readLine → s.job.col = s.jp.outWidth → s.jp.outWidth ≠ 0 → s.jp.outWidth ≤ s.cfg.scanCap →
    s.cfg.pulseWidth < s.jp.velocity → rampLength s.cfg.table s.jp.velocity < s.cfg.table.length →
    pixels.length = s.jp.outWidth.toNat → (∀ j, j < pixels.length → s.scan.read j = pixels[j]?) →
    dir = lineDir s.cfg.line0Dir s.job.line →
    x = { s with axis := .x, physDir := physOf dir } → y = { s with axis := .y, physDir := .pos } →
    ∃ n u, engineRun n s = .next u ∧
      u.pulses =
        s.pulses ++ pulsesAt x 0 (accelDelays s.cfg.table s.jp.velocity s.jp.rampLen) ++
          rasterPulses x s.jp.velocity (match dir with | .forward => pixels | .reverse => pixels.reverse) ++
          pulsesAt x 0 (accelDelays s.cfg.table s.jp.velocity s.jp.rampLen).reverse ++
          pulsesAt y 0 (List.replicate s.jp.pitch.toNat s.jp.velocity) ∧
      u.running = false ∧ laserOut u = 0 ∧ u.agenda = [] ∧ u.scan = s.scan ∧ u.jp = s.jp ∧ u.rx = s.rx ∧ u.tx = s.tx ∧
      u.job.line = s.job.line + 1 ∧
      u.job.phase = (if s.job.line + 1 = s.jp.imageHeight then .none else .reqLine)

/-! ### Whole-machine rules -/

/-- R53, R281: the values the spec gives for reset, for every choice of parameters; that the state carries them is the
model's choice (log 1). -/
def Obligations.ResetLeavesTheBlockIdle : Prop :=
  State.reset = State.resetWith Config.params ∧ Config.params.scanCap = 1024 ∧ Config.params.velocityReset = 65535 ∧
  ∀ c : Params, ∀ s : State, s = State.resetWith c →
    s.cfg = c ∧ s.running = false ∧ s.tmr.run = false ∧ s.stepOut = false ∧
    s.pwm.run = false ∧ s.pwm.connected = false ∧ laserOut s = 0 ∧
    s.jp =
      { outWidth := 0, imageHeight := 0, pixelWidth := 0, backlash := 0, pitch := 0, rampLen := 0,
        velocity := c.velocityReset } ∧
    s.ps.state = .awaitSentinel ∧ s.job.phase = .none ∧ s.rx = [] ∧ s.tx = [] ∧ s.pulses = [] ∧
    (∀ i, s.scan.read i = none) ∧ Quiescent s

/-- R39, R40: only a set command writes a JobParameters register: no other instruction changes one, and a step that changes
one is FOREGROUND, in the parser, consuming the delimiter of a set command and executing it. -/
def Obligations.OnlySetCommandsWriteParameters : Prop :=
  (∀ (i : Instr) (s t : State), exec i s = .next t → setParts i = none → t.jp = s.jp) ∧
  (∀ s t : State, step s = .next t → t.jp ≠ s.jp →
    nextTurn s = .foreground ∧ s.agenda = [] ∧ s.job.phase = .none ∧ s.ps.state = .readArg ∧
    ∃ rest, s.rx = 0x3B :: rest ∧
      step s = exec (setInstr s.ps.cmd { nd := s.ps.nd, acc := s.ps.acc, term := 0x3B }) { afterChoice s with rx := rest })

/-- R20, R73: no step changes the parameters of the run, the AccelTable among them (that the state carries them is the
model's choice, log 1). -/
def Obligations.NoStepChangesTheTable : Prop :=
  ∀ s t : State, step s = .next t → t.cfg = s.cfg

/-- R48, R124: the list of pulses grows by one record at a pulse-start event and changes at no other instruction and at no
other step of any agent. -/
def Obligations.PulsesAreRecordedAtPulseStartOnly : Prop :=
  (∀ (i : Instr) (s t : State), exec i s = .next t →
    t.pulses = s.pulses ∨
    (i = .pulseStart ∧
      t.pulses =
        s.pulses ++ [{ axis := s.axis, physDir := s.physDir, delay := s.tmr.cmpStart, laser := laserOut s }])) ∧
  (∀ s t : State, step s = .next t →
    t.pulses = s.pulses ∨
    (nextTurn s = .timer ∧ s.tmr.run = true ∧ s.tmr.next = .pulseStart ∧
      t.pulses =
        s.pulses ++ [{ axis := s.axis, physDir := s.physDir, delay := s.tmr.cmpStart, laser := laserOut s }]))

/-- R213, R40: while a job runs no byte is a command: FOREGROUND's steps leave the job parameters and the parser's argument
alone, and the parser's state changes only when the job ends. -/
def Obligations.JobsInterpretNoCommand : Prop :=
  ∀ s t : State, s.job.phase ≠ .none → stepAs .foreground s = .next t →
    t.jp = s.jp ∧ t.ps.cmd = s.ps.cmd ∧ t.ps.acc = s.ps.acc ∧ t.ps.nd = s.ps.nd ∧
    (t.ps.state = s.ps.state ∨ (t.ps.state = .awaitSentinel ∧ t.job.phase = .none))

/-- R28, R135, R63, R237, R156: after reset the engine's invariants hold, whatever the parameters, and with parameters that
meet R8 to R10 so do the session invariants. -/
def Obligations.InvariantsHoldAtReset : Prop :=
  ∀ c : Params, EngineInv (State.resetWith c) ∧ (c.Valid → SessionInv (State.resetWith c))

/-- R28, R135, R63, R195: every instruction keeps the engine's invariants. -/
def Obligations.EveryInstructionKeepsEngineInv : Prop :=
  ∀ (i : Instr) (s t : State), EngineInv s → exec i s = .next t → EngineInv t

/-- R28, R135, R63, R195: every step keeps the engine's invariants. -/
def Obligations.EveryStepKeepsEngineInv : Prop :=
  ∀ s t : State, EngineInv s → step s = .next t → EngineInv t

/-- R122, R300: weak fairness of STEP_TIMER. When no turn is prescribed, an event that stays enabled occurs: the block
either stops or comes, after no more free turns than the event waits at most, to a step that is STEP_TIMER's, with the timer
as it was. So every armed move of a session finishes, whatever the turns, but for the table fault of R172. How long an event
waits is a free value (log 3). -/
def Obligations.EnabledTimerEventsOccur : Prop :=
  (∀ s : State, EngineInv s → s.tmr.run = true → s.turns = [] →
    ∃ n, n ≤ Config.patience (s.tick - s.waited) ∧
      ((∃ t : State, Host.Core.run Sys2Proof.core n s = .next t ∧ t.tmr = s.tmr ∧ nextTurn t = .timer) ∨
        (∃ f, Host.Core.run Sys2Proof.core n s = .fault f) ∨ (∃ r, Host.Core.run Sys2Proof.core n s = .refused r))) ∧
  (∀ s : State, SessionInv s → s.running = true →
    ∃ n, (∃ t : State, Host.Core.run Sys2Proof.core n s = .next t ∧ t.running = false) ∨
      (∃ left : State, Host.Core.run Sys2Proof.core n s = .fault (.tableRange s.cfg.table.length left)))

/-- R237, R156, R231: every step keeps the session invariants, so in every session a move is active only while FOREGROUND
waits for it, and the laser output is connected only in the phase of a raster move, from `laser_enable` to `laser_disable`. -/
def Obligations.EveryStepKeepsSessionInv : Prop :=
  ∀ s t : State, SessionInv s → step s = .next t → SessionInv t

/-- R251, R172, R253: what can stop a session. With parameters that meet R8 to R10 the only fault is `TableRange(N_TABLE)`,
and only when the job's velocity is one that every table entry reaches; the only refusal is that of a job with backlash. -/
def Obligations.SessionsFaultOnlyPastTheTable : Prop :=
  ∀ s : State, SessionInv s →
    (∀ f, step s = .fault f →
      (∃ left, f = .tableRange s.cfg.table.length left) ∧ rampLength s.cfg.table s.jp.velocity = s.cfg.table.length) ∧
    (∀ r, step s = .refused r → r = .backlash ∧ s.jp.backlash ≠ 0)
end

