-- ==== Sys2Proof/Laws/Memory.lean ====
section
/-! SUPPORT. The ScanlineBuffer: a read after a write, what a write leaves alone, and the canonical form (R63). -/

namespace Sys2Proof.Machine

theorem Memory.read_write_same (m : Memory) (i : Nat) (b : Byte) : (m.write i b).read i = some b := by
  induction m with
  | nil => simp [Memory.write, Memory.read]
  | cons c m ih =>
    obtain ⟨a, c⟩ := c
    unfold Memory.write
    split
    · simp [Memory.read]
    · split
      · simp [Memory.read]
      · rename_i h1 h2
        simp [Memory.read, ih, show a ≠ i by omega]

theorem Memory.read_write_other (m : Memory) {i j : Nat} (b : Byte) (h : j ≠ i) :
    (m.write i b).read j = m.read j := by
  induction m with
  | nil => simp [Memory.write, Memory.read, h.symm]
  | cons c m ih =>
    obtain ⟨a, c⟩ := c
    unfold Memory.write
    split
    · simp [Memory.read, h.symm]
    · split
      · rename_i h1 h2
        subst h2
        simp [Memory.read, h.symm]
      · simp [Memory.read, ih]

/-- A write puts the address or an old one first. -/
theorem Memory.write_head (m : Memory) (i : Nat) (b : Byte) :
    ∃ c r, m.write i b = c :: r ∧ (c.1 = i ∨ ∃ r', m = c :: r') := by
  cases m with
  | nil => exact ⟨(i, b), [], rfl, .inl rfl⟩
  | cons c m =>
    obtain ⟨a, c⟩ := c
    unfold Memory.write
    split
    · exact ⟨_, _, rfl, .inl rfl⟩
    · split
      · exact ⟨_, _, rfl, .inl rfl⟩
      · exact ⟨_, _, rfl, .inr ⟨m, rfl⟩⟩

theorem Memory.wf_cons {c : Host.Cell} {m : Memory} :
    Memory.wf (c :: m) = true ↔ (∀ d r, m = d :: r → c.1 < d.1) ∧ Memory.wf m = true := by
  cases m with
  | nil => simp [Memory.wf]
  | cons d m => simp [Memory.wf]

/-- Every memory operation keeps the canonical form. -/
theorem Memory.write_wf {m : Memory} (i : Nat) (b : Byte) (h : m.wf = true) : (m.write i b).wf = true := by
  induction m with
  | nil => rfl
  | cons c m ih =>
    obtain ⟨a, c⟩ := c
    have hm := (Memory.wf_cons.mp h)
    unfold Memory.write
    split
    · rename_i h1
      exact Memory.wf_cons.mpr ⟨by rintro d r hd; cases hd; exact h1, h⟩
    · split
      · rename_i h1 h2
        subst h2
        exact Memory.wf_cons.mpr ⟨hm.1, hm.2⟩
      · rename_i h1 h2
        refine Memory.wf_cons.mpr ⟨?_, ih hm.2⟩
        rintro d r hd
        obtain ⟨e, r', he, hc⟩ := Memory.write_head m i b
        rw [he] at hd
        cases hd
        rcases hc with hc | ⟨r'', hc⟩
        · simp only [hc]; omega
        · exact hm.1 _ _ hc

theorem Memory.mem_write {m : Memory} {i : Nat} {b : Byte} {c : Host.Cell} (h : c ∈ m.write i b) :
    c = (i, b) ∨ c ∈ m := by
  induction m with
  | nil => simpa [Memory.write] using h
  | cons d m ih =>
    obtain ⟨a, d⟩ := d
    unfold Memory.write at h
    split at h
    · simpa using h
    · split at h
      · rcases List.mem_cons.mp h with h | h
        · exact .inl h
        · exact .inr (List.mem_cons_of_mem _ h)
      · rcases List.mem_cons.mp h with h | h
        · exact .inr (h ▸ List.mem_cons_self)
        · exact (ih h).imp id (List.mem_cons_of_mem _)

/-- The empty buffer of reset is in canonical form. -/
theorem reset_scan_wf (c : Params) : (State.resetWith c).scan.wf = true := rfl

end Sys2Proof.Machine
end

