-- ==== Sys2Proof/Laws/State.lean ====
section
/-! SUPPORT. One lemma per field per named update of the state: what the update leaves in that field. -/

namespace Sys2Proof.Machine

/-! ### timerStart -/

@[simp] theorem timerStart_cfg (s : State) : (timerStart s).cfg = s.cfg := rfl
@[simp] theorem timerStart_mc (s : State) : (timerStart s).mc = s.mc := rfl
@[simp] theorem timerStart_running (s : State) : (timerStart s).running = s.running := rfl
@[simp] theorem timerStart_tmr (s : State) : (timerStart s).tmr = { s.tmr with run := true, next := s.cfg.firstEvent } := rfl
@[simp] theorem timerStart_stepOut (s : State) : (timerStart s).stepOut = s.stepOut := rfl
@[simp] theorem timerStart_axis (s : State) : (timerStart s).axis = s.axis := rfl
@[simp] theorem timerStart_physDir (s : State) : (timerStart s).physDir = s.physDir := rfl
@[simp] theorem timerStart_pwm (s : State) : (timerStart s).pwm = s.pwm := rfl
@[simp] theorem timerStart_jp (s : State) : (timerStart s).jp = s.jp := rfl
@[simp] theorem timerStart_ps (s : State) : (timerStart s).ps = s.ps := rfl
@[simp] theorem timerStart_job (s : State) : (timerStart s).job = s.job := rfl
@[simp] theorem timerStart_scan (s : State) : (timerStart s).scan = s.scan := rfl
@[simp] theorem timerStart_rx (s : State) : (timerStart s).rx = s.rx := rfl
@[simp] theorem timerStart_tx (s : State) : (timerStart s).tx = s.tx := rfl
@[simp] theorem timerStart_pulses (s : State) : (timerStart s).pulses = s.pulses := rfl
@[simp] theorem timerStart_agenda (s : State) : (timerStart s).agenda = s.agenda := rfl
@[simp] theorem timerStart_turns (s : State) : (timerStart s).turns = s.turns := rfl
@[simp] theorem timerStart_tick (s : State) : (timerStart s).tick = s.tick := rfl
@[simp] theorem timerStart_waited (s : State) : (timerStart s).waited = s.waited := rfl
@[simp] theorem timerStart_fresh (s : State) : (timerStart s).fresh = s.fresh := rfl

/-! ### timerStop -/

@[simp] theorem timerStop_cfg (s : State) : (timerStop s).cfg = s.cfg := rfl
@[simp] theorem timerStop_mc (s : State) : (timerStop s).mc = s.mc := rfl
@[simp] theorem timerStop_running (s : State) : (timerStop s).running = s.running := rfl
@[simp] theorem timerStop_tmr (s : State) : (timerStop s).tmr = { s.tmr with run := false } := rfl
@[simp] theorem timerStop_stepOut (s : State) : (timerStop s).stepOut = s.stepOut := rfl
@[simp] theorem timerStop_axis (s : State) : (timerStop s).axis = s.axis := rfl
@[simp] theorem timerStop_physDir (s : State) : (timerStop s).physDir = s.physDir := rfl
@[simp] theorem timerStop_pwm (s : State) : (timerStop s).pwm = s.pwm := rfl
@[simp] theorem timerStop_jp (s : State) : (timerStop s).jp = s.jp := rfl
@[simp] theorem timerStop_ps (s : State) : (timerStop s).ps = s.ps := rfl
@[simp] theorem timerStop_job (s : State) : (timerStop s).job = s.job := rfl
@[simp] theorem timerStop_scan (s : State) : (timerStop s).scan = s.scan := rfl
@[simp] theorem timerStop_rx (s : State) : (timerStop s).rx = s.rx := rfl
@[simp] theorem timerStop_tx (s : State) : (timerStop s).tx = s.tx := rfl
@[simp] theorem timerStop_pulses (s : State) : (timerStop s).pulses = s.pulses := rfl
@[simp] theorem timerStop_agenda (s : State) : (timerStop s).agenda = s.agenda := rfl
@[simp] theorem timerStop_turns (s : State) : (timerStop s).turns = s.turns := rfl
@[simp] theorem timerStop_tick (s : State) : (timerStop s).tick = s.tick := rfl
@[simp] theorem timerStop_waited (s : State) : (timerStop s).waited = s.waited := rfl
@[simp] theorem timerStop_fresh (s : State) : (timerStop s).fresh = s.fresh := rfl

/-! ### launch -/

@[simp] theorem launch_cfg (s : State) : (launch s).cfg = s.cfg := rfl
@[simp] theorem launch_mc (s : State) : (launch s).mc = s.mc := rfl
@[simp] theorem launch_running (s : State) : (launch s).running = true := rfl
@[simp] theorem launch_tmr (s : State) : (launch s).tmr = { s.tmr with run := true, next := s.cfg.firstEvent } := rfl
@[simp] theorem launch_stepOut (s : State) : (launch s).stepOut = s.stepOut := rfl
@[simp] theorem launch_axis (s : State) : (launch s).axis = s.axis := rfl
@[simp] theorem launch_physDir (s : State) : (launch s).physDir = s.physDir := rfl
@[simp] theorem launch_pwm (s : State) : (launch s).pwm = s.pwm := rfl
@[simp] theorem launch_jp (s : State) : (launch s).jp = s.jp := rfl
@[simp] theorem launch_ps (s : State) : (launch s).ps = s.ps := rfl
@[simp] theorem launch_job (s : State) : (launch s).job = s.job := rfl
@[simp] theorem launch_scan (s : State) : (launch s).scan = s.scan := rfl
@[simp] theorem launch_rx (s : State) : (launch s).rx = s.rx := rfl
@[simp] theorem launch_tx (s : State) : (launch s).tx = s.tx := rfl
@[simp] theorem launch_pulses (s : State) : (launch s).pulses = s.pulses := rfl
@[simp] theorem launch_agenda (s : State) : (launch s).agenda = s.agenda := rfl
@[simp] theorem launch_turns (s : State) : (launch s).turns = s.turns := rfl
@[simp] theorem launch_tick (s : State) : (launch s).tick = s.tick := rfl
@[simp] theorem launch_waited (s : State) : (launch s).waited = s.waited := rfl
@[simp] theorem launch_fresh (s : State) : (launch s).fresh = s.fresh := rfl

/-! ### complete -/

@[simp] theorem complete_cfg (s : State) : (complete s).cfg = s.cfg := rfl
@[simp] theorem complete_mc (s : State) : (complete s).mc = s.mc := rfl
@[simp] theorem complete_running (s : State) : (complete s).running = false := rfl
@[simp] theorem complete_tmr (s : State) : (complete s).tmr = { s.tmr with run := false } := rfl
@[simp] theorem complete_stepOut (s : State) : (complete s).stepOut = s.stepOut := rfl
@[simp] theorem complete_axis (s : State) : (complete s).axis = s.axis := rfl
@[simp] theorem complete_physDir (s : State) : (complete s).physDir = s.physDir := rfl
@[simp] theorem complete_pwm (s : State) : (complete s).pwm = s.pwm := rfl
@[simp] theorem complete_jp (s : State) : (complete s).jp = s.jp := rfl
@[simp] theorem complete_ps (s : State) : (complete s).ps = s.ps := rfl
@[simp] theorem complete_job (s : State) : (complete s).job = s.job := rfl
@[simp] theorem complete_scan (s : State) : (complete s).scan = s.scan := rfl
@[simp] theorem complete_rx (s : State) : (complete s).rx = s.rx := rfl
@[simp] theorem complete_tx (s : State) : (complete s).tx = s.tx := rfl
@[simp] theorem complete_pulses (s : State) : (complete s).pulses = s.pulses := rfl
@[simp] theorem complete_agenda (s : State) : (complete s).agenda = s.agenda := rfl
@[simp] theorem complete_turns (s : State) : (complete s).turns = s.turns := rfl
@[simp] theorem complete_tick (s : State) : (complete s).tick = s.tick := rfl
@[simp] theorem complete_waited (s : State) : (complete s).waited = s.waited := rfl
@[simp] theorem complete_fresh (s : State) : (complete s).fresh = s.fresh := rfl

/-! ### setStepOut -/

@[simp] theorem setStepOut_cfg (v : Bool) (s : State) : (setStepOut v s).cfg = s.cfg := rfl
@[simp] theorem setStepOut_mc (v : Bool) (s : State) : (setStepOut v s).mc = s.mc := rfl
@[simp] theorem setStepOut_running (v : Bool) (s : State) : (setStepOut v s).running = s.running := rfl
@[simp] theorem setStepOut_tmr (v : Bool) (s : State) : (setStepOut v s).tmr = s.tmr := rfl
@[simp] theorem setStepOut_stepOut (v : Bool) (s : State) : (setStepOut v s).stepOut = v := rfl
@[simp] theorem setStepOut_axis (v : Bool) (s : State) : (setStepOut v s).axis = s.axis := rfl
@[simp] theorem setStepOut_physDir (v : Bool) (s : State) : (setStepOut v s).physDir = s.physDir := rfl
@[simp] theorem setStepOut_pwm (v : Bool) (s : State) : (setStepOut v s).pwm = s.pwm := rfl
@[simp] theorem setStepOut_jp (v : Bool) (s : State) : (setStepOut v s).jp = s.jp := rfl
@[simp] theorem setStepOut_ps (v : Bool) (s : State) : (setStepOut v s).ps = s.ps := rfl
@[simp] theorem setStepOut_job (v : Bool) (s : State) : (setStepOut v s).job = s.job := rfl
@[simp] theorem setStepOut_scan (v : Bool) (s : State) : (setStepOut v s).scan = s.scan := rfl
@[simp] theorem setStepOut_rx (v : Bool) (s : State) : (setStepOut v s).rx = s.rx := rfl
@[simp] theorem setStepOut_tx (v : Bool) (s : State) : (setStepOut v s).tx = s.tx := rfl
@[simp] theorem setStepOut_pulses (v : Bool) (s : State) : (setStepOut v s).pulses = s.pulses := rfl
@[simp] theorem setStepOut_agenda (v : Bool) (s : State) : (setStepOut v s).agenda = s.agenda := rfl
@[simp] theorem setStepOut_turns (v : Bool) (s : State) : (setStepOut v s).turns = s.turns := rfl
@[simp] theorem setStepOut_tick (v : Bool) (s : State) : (setStepOut v s).tick = s.tick := rfl
@[simp] theorem setStepOut_waited (v : Bool) (s : State) : (setStepOut v s).waited = s.waited := rfl
@[simp] theorem setStepOut_fresh (v : Bool) (s : State) : (setStepOut v s).fresh = s.fresh := rfl

/-! ### setOutput -/

@[simp] theorem setOutput_cfg (v : Bool) (s : State) : (setOutput v s).cfg = s.cfg := rfl
@[simp] theorem setOutput_mc (v : Bool) (s : State) : (setOutput v s).mc = s.mc := rfl
@[simp] theorem setOutput_running (v : Bool) (s : State) : (setOutput v s).running = s.running := rfl
@[simp] theorem setOutput_tmr (v : Bool) (s : State) : (setOutput v s).tmr = s.tmr := rfl
@[simp] theorem setOutput_stepOut (v : Bool) (s : State) : (setOutput v s).stepOut = s.stepOut := rfl
@[simp] theorem setOutput_axis (v : Bool) (s : State) : (setOutput v s).axis = s.axis := rfl
@[simp] theorem setOutput_physDir (v : Bool) (s : State) : (setOutput v s).physDir = s.physDir := rfl
@[simp] theorem setOutput_pwm (v : Bool) (s : State) : (setOutput v s).pwm = { s.pwm with run := v, connected := v } := rfl
@[simp] theorem setOutput_jp (v : Bool) (s : State) : (setOutput v s).jp = s.jp := rfl
@[simp] theorem setOutput_ps (v : Bool) (s : State) : (setOutput v s).ps = s.ps := rfl
@[simp] theorem setOutput_job (v : Bool) (s : State) : (setOutput v s).job = s.job := rfl
@[simp] theorem setOutput_scan (v : Bool) (s : State) : (setOutput v s).scan = s.scan := rfl
@[simp] theorem setOutput_rx (v : Bool) (s : State) : (setOutput v s).rx = s.rx := rfl
@[simp] theorem setOutput_tx (v : Bool) (s : State) : (setOutput v s).tx = s.tx := rfl
@[simp] theorem setOutput_pulses (v : Bool) (s : State) : (setOutput v s).pulses = s.pulses := rfl
@[simp] theorem setOutput_agenda (v : Bool) (s : State) : (setOutput v s).agenda = s.agenda := rfl
@[simp] theorem setOutput_turns (v : Bool) (s : State) : (setOutput v s).turns = s.turns := rfl
@[simp] theorem setOutput_tick (v : Bool) (s : State) : (setOutput v s).tick = s.tick := rfl
@[simp] theorem setOutput_waited (v : Bool) (s : State) : (setOutput v s).waited = s.waited := rfl
@[simp] theorem setOutput_fresh (v : Bool) (s : State) : (setOutput v s).fresh = s.fresh := rfl

/-! ### send -/

@[simp] theorem send_cfg (bytes : List Byte) (s : State) : (send bytes s).cfg = s.cfg := rfl
@[simp] theorem send_mc (bytes : List Byte) (s : State) : (send bytes s).mc = s.mc := rfl
@[simp] theorem send_running (bytes : List Byte) (s : State) : (send bytes s).running = s.running := rfl
@[simp] theorem send_tmr (bytes : List Byte) (s : State) : (send bytes s).tmr = s.tmr := rfl
@[simp] theorem send_stepOut (bytes : List Byte) (s : State) : (send bytes s).stepOut = s.stepOut := rfl
@[simp] theorem send_axis (bytes : List Byte) (s : State) : (send bytes s).axis = s.axis := rfl
@[simp] theorem send_physDir (bytes : List Byte) (s : State) : (send bytes s).physDir = s.physDir := rfl
@[simp] theorem send_pwm (bytes : List Byte) (s : State) : (send bytes s).pwm = s.pwm := rfl
@[simp] theorem send_jp (bytes : List Byte) (s : State) : (send bytes s).jp = s.jp := rfl
@[simp] theorem send_ps (bytes : List Byte) (s : State) : (send bytes s).ps = s.ps := rfl
@[simp] theorem send_job (bytes : List Byte) (s : State) : (send bytes s).job = s.job := rfl
@[simp] theorem send_scan (bytes : List Byte) (s : State) : (send bytes s).scan = s.scan := rfl
@[simp] theorem send_rx (bytes : List Byte) (s : State) : (send bytes s).rx = s.rx := rfl
@[simp] theorem send_tx (bytes : List Byte) (s : State) : (send bytes s).tx = s.tx ++ bytes := rfl
@[simp] theorem send_pulses (bytes : List Byte) (s : State) : (send bytes s).pulses = s.pulses := rfl
@[simp] theorem send_agenda (bytes : List Byte) (s : State) : (send bytes s).agenda = s.agenda := rfl
@[simp] theorem send_turns (bytes : List Byte) (s : State) : (send bytes s).turns = s.turns := rfl
@[simp] theorem send_tick (bytes : List Byte) (s : State) : (send bytes s).tick = s.tick := rfl
@[simp] theorem send_waited (bytes : List Byte) (s : State) : (send bytes s).waited = s.waited := rfl
@[simp] theorem send_fresh (bytes : List Byte) (s : State) : (send bytes s).fresh = s.fresh := rfl

/-! ### reply -/

@[simp] theorem reply_cfg (i : Instr) (s : State) : (reply i s).cfg = s.cfg := rfl
@[simp] theorem reply_mc (i : Instr) (s : State) : (reply i s).mc = s.mc := rfl
@[simp] theorem reply_running (i : Instr) (s : State) : (reply i s).running = s.running := rfl
@[simp] theorem reply_tmr (i : Instr) (s : State) : (reply i s).tmr = s.tmr := rfl
@[simp] theorem reply_stepOut (i : Instr) (s : State) : (reply i s).stepOut = s.stepOut := rfl
@[simp] theorem reply_axis (i : Instr) (s : State) : (reply i s).axis = s.axis := rfl
@[simp] theorem reply_physDir (i : Instr) (s : State) : (reply i s).physDir = s.physDir := rfl
@[simp] theorem reply_pwm (i : Instr) (s : State) : (reply i s).pwm = s.pwm := rfl
@[simp] theorem reply_jp (i : Instr) (s : State) : (reply i s).jp = s.jp := rfl
@[simp] theorem reply_ps (i : Instr) (s : State) : (reply i s).ps = s.ps := rfl
@[simp] theorem reply_job (i : Instr) (s : State) : (reply i s).job = s.job := rfl
@[simp] theorem reply_scan (i : Instr) (s : State) : (reply i s).scan = s.scan := rfl
@[simp] theorem reply_rx (i : Instr) (s : State) : (reply i s).rx = s.rx := rfl
@[simp] theorem reply_tx (i : Instr) (s : State) : (reply i s).tx = s.tx ++ encode i := rfl
@[simp] theorem reply_pulses (i : Instr) (s : State) : (reply i s).pulses = s.pulses := rfl
@[simp] theorem reply_agenda (i : Instr) (s : State) : (reply i s).agenda = s.agenda := rfl
@[simp] theorem reply_turns (i : Instr) (s : State) : (reply i s).turns = s.turns := rfl
@[simp] theorem reply_tick (i : Instr) (s : State) : (reply i s).tick = s.tick := rfl
@[simp] theorem reply_waited (i : Instr) (s : State) : (reply i s).waited = s.waited := rfl
@[simp] theorem reply_fresh (i : Instr) (s : State) : (reply i s).fresh = s.fresh := rfl

/-! ### toSentinel -/

@[simp] theorem toSentinel_cfg (s : State) : (toSentinel s).cfg = s.cfg := rfl
@[simp] theorem toSentinel_mc (s : State) : (toSentinel s).mc = s.mc := rfl
@[simp] theorem toSentinel_running (s : State) : (toSentinel s).running = s.running := rfl
@[simp] theorem toSentinel_tmr (s : State) : (toSentinel s).tmr = s.tmr := rfl
@[simp] theorem toSentinel_stepOut (s : State) : (toSentinel s).stepOut = s.stepOut := rfl
@[simp] theorem toSentinel_axis (s : State) : (toSentinel s).axis = s.axis := rfl
@[simp] theorem toSentinel_physDir (s : State) : (toSentinel s).physDir = s.physDir := rfl
@[simp] theorem toSentinel_pwm (s : State) : (toSentinel s).pwm = s.pwm := rfl
@[simp] theorem toSentinel_jp (s : State) : (toSentinel s).jp = s.jp := rfl
@[simp] theorem toSentinel_ps (s : State) : (toSentinel s).ps = { s.ps with state := .awaitSentinel } := rfl
@[simp] theorem toSentinel_job (s : State) : (toSentinel s).job = s.job := rfl
@[simp] theorem toSentinel_scan (s : State) : (toSentinel s).scan = s.scan := rfl
@[simp] theorem toSentinel_rx (s : State) : (toSentinel s).rx = s.rx := rfl
@[simp] theorem toSentinel_tx (s : State) : (toSentinel s).tx = s.tx := rfl
@[simp] theorem toSentinel_pulses (s : State) : (toSentinel s).pulses = s.pulses := rfl
@[simp] theorem toSentinel_agenda (s : State) : (toSentinel s).agenda = s.agenda := rfl
@[simp] theorem toSentinel_turns (s : State) : (toSentinel s).turns = s.turns := rfl
@[simp] theorem toSentinel_tick (s : State) : (toSentinel s).tick = s.tick := rfl
@[simp] theorem toSentinel_waited (s : State) : (toSentinel s).waited = s.waited := rfl
@[simp] theorem toSentinel_fresh (s : State) : (toSentinel s).fresh = s.fresh := rfl

/-! ### endJob -/

@[simp] theorem endJob_cfg (s : State) : (endJob s).cfg = s.cfg := rfl
@[simp] theorem endJob_mc (s : State) : (endJob s).mc = s.mc := rfl
@[simp] theorem endJob_running (s : State) : (endJob s).running = s.running := rfl
@[simp] theorem endJob_tmr (s : State) : (endJob s).tmr = s.tmr := rfl
@[simp] theorem endJob_stepOut (s : State) : (endJob s).stepOut = s.stepOut := rfl
@[simp] theorem endJob_axis (s : State) : (endJob s).axis = s.axis := rfl
@[simp] theorem endJob_physDir (s : State) : (endJob s).physDir = s.physDir := rfl
@[simp] theorem endJob_pwm (s : State) : (endJob s).pwm = s.pwm := rfl
@[simp] theorem endJob_jp (s : State) : (endJob s).jp = s.jp := rfl
@[simp] theorem endJob_ps (s : State) : (endJob s).ps = { s.ps with state := .awaitSentinel } := rfl
@[simp] theorem endJob_job (s : State) : (endJob s).job = { s.job with phase := .none } := rfl
@[simp] theorem endJob_scan (s : State) : (endJob s).scan = s.scan := rfl
@[simp] theorem endJob_rx (s : State) : (endJob s).rx = s.rx := rfl
@[simp] theorem endJob_tx (s : State) : (endJob s).tx = s.tx := rfl
@[simp] theorem endJob_pulses (s : State) : (endJob s).pulses = s.pulses := rfl
@[simp] theorem endJob_agenda (s : State) : (endJob s).agenda = s.agenda := rfl
@[simp] theorem endJob_turns (s : State) : (endJob s).turns = s.turns := rfl
@[simp] theorem endJob_tick (s : State) : (endJob s).tick = s.tick := rfl
@[simp] theorem endJob_waited (s : State) : (endJob s).waited = s.waited := rfl
@[simp] theorem endJob_fresh (s : State) : (endJob s).fresh = s.fresh := rfl

/-! ### push -/

@[simp] theorem push_cfg (ts : List Task) (s : State) : (push ts s).cfg = s.cfg := rfl
@[simp] theorem push_mc (ts : List Task) (s : State) : (push ts s).mc = s.mc := rfl
@[simp] theorem push_running (ts : List Task) (s : State) : (push ts s).running = s.running := rfl
@[simp] theorem push_tmr (ts : List Task) (s : State) : (push ts s).tmr = s.tmr := rfl
@[simp] theorem push_stepOut (ts : List Task) (s : State) : (push ts s).stepOut = s.stepOut := rfl
@[simp] theorem push_axis (ts : List Task) (s : State) : (push ts s).axis = s.axis := rfl
@[simp] theorem push_physDir (ts : List Task) (s : State) : (push ts s).physDir = s.physDir := rfl
@[simp] theorem push_pwm (ts : List Task) (s : State) : (push ts s).pwm = s.pwm := rfl
@[simp] theorem push_jp (ts : List Task) (s : State) : (push ts s).jp = s.jp := rfl
@[simp] theorem push_ps (ts : List Task) (s : State) : (push ts s).ps = s.ps := rfl
@[simp] theorem push_job (ts : List Task) (s : State) : (push ts s).job = s.job := rfl
@[simp] theorem push_scan (ts : List Task) (s : State) : (push ts s).scan = s.scan := rfl
@[simp] theorem push_rx (ts : List Task) (s : State) : (push ts s).rx = s.rx := rfl
@[simp] theorem push_tx (ts : List Task) (s : State) : (push ts s).tx = s.tx := rfl
@[simp] theorem push_pulses (ts : List Task) (s : State) : (push ts s).pulses = s.pulses := rfl
@[simp] theorem push_agenda (ts : List Task) (s : State) : (push ts s).agenda = ts ++ s.agenda := rfl
@[simp] theorem push_turns (ts : List Task) (s : State) : (push ts s).turns = s.turns := rfl
@[simp] theorem push_tick (ts : List Task) (s : State) : (push ts s).tick = s.tick := rfl
@[simp] theorem push_waited (ts : List Task) (s : State) : (push ts s).waited = s.waited := rfl
@[simp] theorem push_fresh (ts : List Task) (s : State) : (push ts s).fresh = s.fresh := rfl

/-! ### scanRamp -/

@[simp] theorem scanRamp_cfg (rate : U16) (s : State) : (scanRamp rate s).cfg = s.cfg := rfl
@[simp] theorem scanRamp_mc (rate : U16) (s : State) : (scanRamp rate s).mc = s.mc := rfl
@[simp] theorem scanRamp_running (rate : U16) (s : State) : (scanRamp rate s).running = s.running := rfl
@[simp] theorem scanRamp_tmr (rate : U16) (s : State) : (scanRamp rate s).tmr = s.tmr := rfl
@[simp] theorem scanRamp_stepOut (rate : U16) (s : State) : (scanRamp rate s).stepOut = s.stepOut := rfl
@[simp] theorem scanRamp_axis (rate : U16) (s : State) : (scanRamp rate s).axis = s.axis := rfl
@[simp] theorem scanRamp_physDir (rate : U16) (s : State) : (scanRamp rate s).physDir = s.physDir := rfl
@[simp] theorem scanRamp_pwm (rate : U16) (s : State) : (scanRamp rate s).pwm = s.pwm := rfl
@[simp] theorem scanRamp_jp (rate : U16) (s : State) : (scanRamp rate s).jp = s.jp := rfl
@[simp] theorem scanRamp_ps (rate : U16) (s : State) : (scanRamp rate s).ps = s.ps := rfl
@[simp] theorem scanRamp_job (rate : U16) (s : State) : (scanRamp rate s).job = { s.job with k := BitVec.ofNat 16 (rampLength s.cfg.table rate) } := rfl
@[simp] theorem scanRamp_scan (rate : U16) (s : State) : (scanRamp rate s).scan = s.scan := rfl
@[simp] theorem scanRamp_rx (rate : U16) (s : State) : (scanRamp rate s).rx = s.rx := rfl
@[simp] theorem scanRamp_tx (rate : U16) (s : State) : (scanRamp rate s).tx = s.tx := rfl
@[simp] theorem scanRamp_pulses (rate : U16) (s : State) : (scanRamp rate s).pulses = s.pulses := rfl
@[simp] theorem scanRamp_agenda (rate : U16) (s : State) : (scanRamp rate s).agenda = s.agenda := rfl
@[simp] theorem scanRamp_turns (rate : U16) (s : State) : (scanRamp rate s).turns = s.turns := rfl
@[simp] theorem scanRamp_tick (rate : U16) (s : State) : (scanRamp rate s).tick = s.tick := rfl
@[simp] theorem scanRamp_waited (rate : U16) (s : State) : (scanRamp rate s).waited = s.waited := rfl
@[simp] theorem scanRamp_fresh (rate : U16) (s : State) : (scanRamp rate s).fresh = s.fresh := rfl

/-! ### pulseStartEvent -/

@[simp] theorem pulseStartEvent_cfg (s : State) : (pulseStartEvent s).cfg = s.cfg := rfl
@[simp] theorem pulseStartEvent_mc (s : State) : (pulseStartEvent s).mc = s.mc := rfl
@[simp] theorem pulseStartEvent_running (s : State) : (pulseStartEvent s).running = s.running := rfl
@[simp] theorem pulseStartEvent_tmr (s : State) : (pulseStartEvent s).tmr = { s.tmr with next := .pulseEnd } := rfl
@[simp] theorem pulseStartEvent_stepOut (s : State) : (pulseStartEvent s).stepOut = true := rfl
@[simp] theorem pulseStartEvent_axis (s : State) : (pulseStartEvent s).axis = s.axis := rfl
@[simp] theorem pulseStartEvent_physDir (s : State) : (pulseStartEvent s).physDir = s.physDir := rfl
@[simp] theorem pulseStartEvent_pwm (s : State) : (pulseStartEvent s).pwm = s.pwm := rfl
@[simp] theorem pulseStartEvent_jp (s : State) : (pulseStartEvent s).jp = s.jp := rfl
@[simp] theorem pulseStartEvent_ps (s : State) : (pulseStartEvent s).ps = s.ps := rfl
@[simp] theorem pulseStartEvent_job (s : State) : (pulseStartEvent s).job = s.job := rfl
@[simp] theorem pulseStartEvent_scan (s : State) : (pulseStartEvent s).scan = s.scan := rfl
@[simp] theorem pulseStartEvent_rx (s : State) : (pulseStartEvent s).rx = s.rx := rfl
@[simp] theorem pulseStartEvent_tx (s : State) : (pulseStartEvent s).tx = s.tx := rfl
@[simp] theorem pulseStartEvent_pulses (s : State) : (pulseStartEvent s).pulses = s.pulses ++ [{ axis := s.axis, physDir := s.physDir, delay := s.tmr.cmpStart, laser := laserOut s }] := rfl
@[simp] theorem pulseStartEvent_agenda (s : State) : (pulseStartEvent s).agenda = s.agenda := rfl
@[simp] theorem pulseStartEvent_turns (s : State) : (pulseStartEvent s).turns = s.turns := rfl
@[simp] theorem pulseStartEvent_tick (s : State) : (pulseStartEvent s).tick = s.tick := rfl
@[simp] theorem pulseStartEvent_waited (s : State) : (pulseStartEvent s).waited = s.waited := rfl
@[simp] theorem pulseStartEvent_fresh (s : State) : (pulseStartEvent s).fresh = s.fresh := rfl

/-! ### endPulse -/

@[simp] theorem endPulse_cfg (s : State) : (endPulse s).cfg = s.cfg := rfl
@[simp] theorem endPulse_mc (s : State) : (endPulse s).mc = advanceIndex s.mc := rfl
@[simp] theorem endPulse_running (s : State) : (endPulse s).running = s.running := rfl
@[simp] theorem endPulse_tmr (s : State) : (endPulse s).tmr = s.tmr := rfl
@[simp] theorem endPulse_stepOut (s : State) : (endPulse s).stepOut = false := rfl
@[simp] theorem endPulse_axis (s : State) : (endPulse s).axis = s.axis := rfl
@[simp] theorem endPulse_physDir (s : State) : (endPulse s).physDir = s.physDir := rfl
@[simp] theorem endPulse_pwm (s : State) : (endPulse s).pwm = s.pwm := rfl
@[simp] theorem endPulse_jp (s : State) : (endPulse s).jp = s.jp := rfl
@[simp] theorem endPulse_ps (s : State) : (endPulse s).ps = s.ps := rfl
@[simp] theorem endPulse_job (s : State) : (endPulse s).job = s.job := rfl
@[simp] theorem endPulse_scan (s : State) : (endPulse s).scan = s.scan := rfl
@[simp] theorem endPulse_rx (s : State) : (endPulse s).rx = s.rx := rfl
@[simp] theorem endPulse_tx (s : State) : (endPulse s).tx = s.tx := rfl
@[simp] theorem endPulse_pulses (s : State) : (endPulse s).pulses = s.pulses := rfl
@[simp] theorem endPulse_agenda (s : State) : (endPulse s).agenda = s.agenda := rfl
@[simp] theorem endPulse_turns (s : State) : (endPulse s).turns = s.turns := rfl
@[simp] theorem endPulse_tick (s : State) : (endPulse s).tick = s.tick := rfl
@[simp] theorem endPulse_waited (s : State) : (endPulse s).waited = s.waited := rfl
@[simp] theorem endPulse_fresh (s : State) : (endPulse s).fresh = s.fresh := rfl

/-! ### markPhase -/

@[simp] theorem markPhase_cfg (p : JobPhase) (s : State) : (markPhase p s).cfg = s.cfg := by unfold markPhase; split <;> rfl
@[simp] theorem markPhase_mc (p : JobPhase) (s : State) : (markPhase p s).mc = s.mc := by unfold markPhase; split <;> rfl
@[simp] theorem markPhase_running (p : JobPhase) (s : State) : (markPhase p s).running = s.running := by unfold markPhase; split <;> rfl
@[simp] theorem markPhase_tmr (p : JobPhase) (s : State) : (markPhase p s).tmr = s.tmr := by unfold markPhase; split <;> rfl
@[simp] theorem markPhase_stepOut (p : JobPhase) (s : State) : (markPhase p s).stepOut = s.stepOut := by unfold markPhase; split <;> rfl
@[simp] theorem markPhase_axis (p : JobPhase) (s : State) : (markPhase p s).axis = s.axis := by unfold markPhase; split <;> rfl
@[simp] theorem markPhase_physDir (p : JobPhase) (s : State) : (markPhase p s).physDir = s.physDir := by unfold markPhase; split <;> rfl
@[simp] theorem markPhase_pwm (p : JobPhase) (s : State) : (markPhase p s).pwm = s.pwm := by unfold markPhase; split <;> rfl
@[simp] theorem markPhase_jp (p : JobPhase) (s : State) : (markPhase p s).jp = s.jp := by unfold markPhase; split <;> rfl
@[simp] theorem markPhase_ps (p : JobPhase) (s : State) : (markPhase p s).ps = s.ps := by unfold markPhase; split <;> rfl
@[simp] theorem markPhase_job (p : JobPhase) (s : State) : (markPhase p s).job = if s.job.phase = .none then s.job else { s.job with phase := p } := by unfold markPhase; split <;> rfl
@[simp] theorem markPhase_scan (p : JobPhase) (s : State) : (markPhase p s).scan = s.scan := by unfold markPhase; split <;> rfl
@[simp] theorem markPhase_rx (p : JobPhase) (s : State) : (markPhase p s).rx = s.rx := by unfold markPhase; split <;> rfl
@[simp] theorem markPhase_tx (p : JobPhase) (s : State) : (markPhase p s).tx = s.tx := by unfold markPhase; split <;> rfl
@[simp] theorem markPhase_pulses (p : JobPhase) (s : State) : (markPhase p s).pulses = s.pulses := by unfold markPhase; split <;> rfl
@[simp] theorem markPhase_agenda (p : JobPhase) (s : State) : (markPhase p s).agenda = s.agenda := by unfold markPhase; split <;> rfl
@[simp] theorem markPhase_turns (p : JobPhase) (s : State) : (markPhase p s).turns = s.turns := by unfold markPhase; split <;> rfl
@[simp] theorem markPhase_tick (p : JobPhase) (s : State) : (markPhase p s).tick = s.tick := by unfold markPhase; split <;> rfl
@[simp] theorem markPhase_waited (p : JobPhase) (s : State) : (markPhase p s).waited = s.waited := by unfold markPhase; split <;> rfl
@[simp] theorem markPhase_fresh (p : JobPhase) (s : State) : (markPhase p s).fresh = s.fresh := by unfold markPhase; split <;> rfl

/-! ### scanTouch -/

@[simp] theorem scanTouch_cfg (i : Nat) (s : State) : (scanTouch i s).cfg = s.cfg := by unfold scanTouch; split <;> simp_all
@[simp] theorem scanTouch_mc (i : Nat) (s : State) : (scanTouch i s).mc = s.mc := by unfold scanTouch; split <;> simp_all
@[simp] theorem scanTouch_running (i : Nat) (s : State) : (scanTouch i s).running = s.running := by unfold scanTouch; split <;> simp_all
@[simp] theorem scanTouch_tmr (i : Nat) (s : State) : (scanTouch i s).tmr = s.tmr := by unfold scanTouch; split <;> simp_all
@[simp] theorem scanTouch_stepOut (i : Nat) (s : State) : (scanTouch i s).stepOut = s.stepOut := by unfold scanTouch; split <;> simp_all
@[simp] theorem scanTouch_axis (i : Nat) (s : State) : (scanTouch i s).axis = s.axis := by unfold scanTouch; split <;> simp_all
@[simp] theorem scanTouch_physDir (i : Nat) (s : State) : (scanTouch i s).physDir = s.physDir := by unfold scanTouch; split <;> simp_all
@[simp] theorem scanTouch_pwm (i : Nat) (s : State) : (scanTouch i s).pwm = s.pwm := by unfold scanTouch; split <;> simp_all
@[simp] theorem scanTouch_jp (i : Nat) (s : State) : (scanTouch i s).jp = s.jp := by unfold scanTouch; split <;> simp_all
@[simp] theorem scanTouch_ps (i : Nat) (s : State) : (scanTouch i s).ps = s.ps := by unfold scanTouch; split <;> simp_all
@[simp] theorem scanTouch_job (i : Nat) (s : State) : (scanTouch i s).job = s.job := by unfold scanTouch; split <;> simp_all
@[simp] theorem scanTouch_scan (i : Nat) (s : State) : (scanTouch i s).scan = s.scan := by unfold scanTouch; split <;> simp_all
@[simp] theorem scanTouch_rx (i : Nat) (s : State) : (scanTouch i s).rx = s.rx := by unfold scanTouch; split <;> simp_all
@[simp] theorem scanTouch_tx (i : Nat) (s : State) : (scanTouch i s).tx = s.tx := by unfold scanTouch; split <;> simp_all
@[simp] theorem scanTouch_pulses (i : Nat) (s : State) : (scanTouch i s).pulses = s.pulses := by unfold scanTouch; split <;> simp_all
@[simp] theorem scanTouch_agenda (i : Nat) (s : State) : (scanTouch i s).agenda = s.agenda := by unfold scanTouch; split <;> simp_all
@[simp] theorem scanTouch_turns (i : Nat) (s : State) : (scanTouch i s).turns = s.turns := by unfold scanTouch; split <;> simp_all
@[simp] theorem scanTouch_tick (i : Nat) (s : State) : (scanTouch i s).tick = s.tick := by unfold scanTouch; split <;> simp_all
@[simp] theorem scanTouch_waited (i : Nat) (s : State) : (scanTouch i s).waited = s.waited := by unfold scanTouch; split <;> simp_all
@[simp] theorem scanTouch_fresh (i : Nat) (s : State) : (scanTouch i s).fresh = if (s.scan.read i).isSome then s.fresh else s.fresh + 1 := by unfold scanTouch; split <;> simp_all

/-! ### hostStep -/

@[simp] theorem hostStep_cfg (b : Byte) (s : State) : (hostStep b s).cfg = s.cfg := rfl
@[simp] theorem hostStep_mc (b : Byte) (s : State) : (hostStep b s).mc = s.mc := rfl
@[simp] theorem hostStep_running (b : Byte) (s : State) : (hostStep b s).running = s.running := rfl
@[simp] theorem hostStep_tmr (b : Byte) (s : State) : (hostStep b s).tmr = s.tmr := rfl
@[simp] theorem hostStep_stepOut (b : Byte) (s : State) : (hostStep b s).stepOut = s.stepOut := rfl
@[simp] theorem hostStep_axis (b : Byte) (s : State) : (hostStep b s).axis = s.axis := rfl
@[simp] theorem hostStep_physDir (b : Byte) (s : State) : (hostStep b s).physDir = s.physDir := rfl
@[simp] theorem hostStep_pwm (b : Byte) (s : State) : (hostStep b s).pwm = s.pwm := rfl
@[simp] theorem hostStep_jp (b : Byte) (s : State) : (hostStep b s).jp = s.jp := rfl
@[simp] theorem hostStep_ps (b : Byte) (s : State) : (hostStep b s).ps = s.ps := rfl
@[simp] theorem hostStep_job (b : Byte) (s : State) : (hostStep b s).job = s.job := rfl
@[simp] theorem hostStep_scan (b : Byte) (s : State) : (hostStep b s).scan = s.scan := rfl
@[simp] theorem hostStep_rx (b : Byte) (s : State) : (hostStep b s).rx = s.rx ++ [b] := rfl
@[simp] theorem hostStep_tx (b : Byte) (s : State) : (hostStep b s).tx = s.tx := rfl
@[simp] theorem hostStep_pulses (b : Byte) (s : State) : (hostStep b s).pulses = s.pulses := rfl
@[simp] theorem hostStep_agenda (b : Byte) (s : State) : (hostStep b s).agenda = s.agenda := rfl
@[simp] theorem hostStep_turns (b : Byte) (s : State) : (hostStep b s).turns = s.turns := rfl
@[simp] theorem hostStep_tick (b : Byte) (s : State) : (hostStep b s).tick = s.tick := rfl
@[simp] theorem hostStep_waited (b : Byte) (s : State) : (hostStep b s).waited = s.waited := rfl
@[simp] theorem hostStep_fresh (b : Byte) (s : State) : (hostStep b s).fresh = s.fresh := rfl

/-! ### Single fields the updates write -/

@[simp] theorem advanceIndex_mode (mc : MoveCommand) : (advanceIndex mc).mode = mc.mode := by
  unfold advanceIndex; split <;> rfl

@[simp] theorem advanceIndex_direction (mc : MoveCommand) : (advanceIndex mc).direction = mc.direction := by
  unfold advanceIndex; split <;> rfl

@[simp] theorem advanceIndex_totalSteps (mc : MoveCommand) : (advanceIndex mc).totalSteps = mc.totalSteps := by
  unfold advanceIndex; split <;> rfl

@[simp] theorem advanceIndex_scanlineOffset (mc : MoveCommand) :
    (advanceIndex mc).scanlineOffset = mc.scanlineOffset := by
  unfold advanceIndex; split <;> rfl

@[simp] theorem markPhase_none (p : JobPhase) (s : State) (h : s.job.phase = .none) : markPhase p s = s := if_pos h

@[simp] theorem push_nil (s : State) : push [] s = s := rfl

@[simp] theorem laserOut_eq (s : State) :
    laserOut s = if s.pwm.connected && s.pwm.run then s.pwm.duty else 0 := rfl

/-! ### populate -/

@[simp] theorem populate_cfg (mode : MoveMode) (dir : Direction) (total delay offset : U16) (s : State) : (populate mode dir total delay offset s).cfg = s.cfg := rfl
@[simp] theorem populate_mc (mode : MoveMode) (dir : Direction) (total delay offset : U16) (s : State) : (populate mode dir total delay offset s).mc = { mode := modeReg mode, direction := dir, stepIndex := startIndex dir total, totalSteps := total, scanlineOffset := offset } := rfl
@[simp] theorem populate_running (mode : MoveMode) (dir : Direction) (total delay offset : U16) (s : State) : (populate mode dir total delay offset s).running = s.running := rfl
@[simp] theorem populate_tmr (mode : MoveMode) (dir : Direction) (total delay offset : U16) (s : State) : (populate mode dir total delay offset s).tmr = { s.tmr with cmpStart := delay, cmpEnd := delay - s.cfg.pulseWidth } := rfl
@[simp] theorem populate_stepOut (mode : MoveMode) (dir : Direction) (total delay offset : U16) (s : State) : (populate mode dir total delay offset s).stepOut = s.stepOut := rfl
@[simp] theorem populate_axis (mode : MoveMode) (dir : Direction) (total delay offset : U16) (s : State) : (populate mode dir total delay offset s).axis = s.axis := rfl
@[simp] theorem populate_physDir (mode : MoveMode) (dir : Direction) (total delay offset : U16) (s : State) : (populate mode dir total delay offset s).physDir = s.physDir := rfl
@[simp] theorem populate_pwm (mode : MoveMode) (dir : Direction) (total delay offset : U16) (s : State) : (populate mode dir total delay offset s).pwm = s.pwm := rfl
@[simp] theorem populate_jp (mode : MoveMode) (dir : Direction) (total delay offset : U16) (s : State) : (populate mode dir total delay offset s).jp = s.jp := rfl
@[simp] theorem populate_ps (mode : MoveMode) (dir : Direction) (total delay offset : U16) (s : State) : (populate mode dir total delay offset s).ps = s.ps := rfl
@[simp] theorem populate_job (mode : MoveMode) (dir : Direction) (total delay offset : U16) (s : State) : (populate mode dir total delay offset s).job = s.job := rfl
@[simp] theorem populate_scan (mode : MoveMode) (dir : Direction) (total delay offset : U16) (s : State) : (populate mode dir total delay offset s).scan = s.scan := rfl
@[simp] theorem populate_rx (mode : MoveMode) (dir : Direction) (total delay offset : U16) (s : State) : (populate mode dir total delay offset s).rx = s.rx := rfl
@[simp] theorem populate_tx (mode : MoveMode) (dir : Direction) (total delay offset : U16) (s : State) : (populate mode dir total delay offset s).tx = s.tx := rfl
@[simp] theorem populate_pulses (mode : MoveMode) (dir : Direction) (total delay offset : U16) (s : State) : (populate mode dir total delay offset s).pulses = s.pulses := rfl
@[simp] theorem populate_agenda (mode : MoveMode) (dir : Direction) (total delay offset : U16) (s : State) : (populate mode dir total delay offset s).agenda = s.agenda := rfl
@[simp] theorem populate_turns (mode : MoveMode) (dir : Direction) (total delay offset : U16) (s : State) : (populate mode dir total delay offset s).turns = s.turns := rfl
@[simp] theorem populate_tick (mode : MoveMode) (dir : Direction) (total delay offset : U16) (s : State) : (populate mode dir total delay offset s).tick = s.tick := rfl
@[simp] theorem populate_waited (mode : MoveMode) (dir : Direction) (total delay offset : U16) (s : State) : (populate mode dir total delay offset s).waited = s.waited := rfl
@[simp] theorem populate_fresh (mode : MoveMode) (dir : Direction) (total delay offset : U16) (s : State) : (populate mode dir total delay offset s).fresh = s.fresh := rfl

/-! ### afterChoice -/

@[simp] theorem afterChoice_cfg (s : State) : (afterChoice s).cfg = s.cfg := by unfold afterChoice; split <;> rfl
@[simp] theorem afterChoice_mc (s : State) : (afterChoice s).mc = s.mc := by unfold afterChoice; split <;> rfl
@[simp] theorem afterChoice_running (s : State) : (afterChoice s).running = s.running := by unfold afterChoice; split <;> rfl
@[simp] theorem afterChoice_tmr (s : State) : (afterChoice s).tmr = s.tmr := by unfold afterChoice; split <;> rfl
@[simp] theorem afterChoice_stepOut (s : State) : (afterChoice s).stepOut = s.stepOut := by unfold afterChoice; split <;> rfl
@[simp] theorem afterChoice_axis (s : State) : (afterChoice s).axis = s.axis := by unfold afterChoice; split <;> rfl
@[simp] theorem afterChoice_physDir (s : State) : (afterChoice s).physDir = s.physDir := by unfold afterChoice; split <;> rfl
@[simp] theorem afterChoice_pwm (s : State) : (afterChoice s).pwm = s.pwm := by unfold afterChoice; split <;> rfl
@[simp] theorem afterChoice_jp (s : State) : (afterChoice s).jp = s.jp := by unfold afterChoice; split <;> rfl
@[simp] theorem afterChoice_ps (s : State) : (afterChoice s).ps = s.ps := by unfold afterChoice; split <;> rfl
@[simp] theorem afterChoice_job (s : State) : (afterChoice s).job = s.job := by unfold afterChoice; split <;> rfl
@[simp] theorem afterChoice_scan (s : State) : (afterChoice s).scan = s.scan := by unfold afterChoice; split <;> rfl
@[simp] theorem afterChoice_rx (s : State) : (afterChoice s).rx = s.rx := by unfold afterChoice; split <;> rfl
@[simp] theorem afterChoice_tx (s : State) : (afterChoice s).tx = s.tx := by unfold afterChoice; split <;> rfl
@[simp] theorem afterChoice_pulses (s : State) : (afterChoice s).pulses = s.pulses := by unfold afterChoice; split <;> rfl
@[simp] theorem afterChoice_agenda (s : State) : (afterChoice s).agenda = s.agenda := by unfold afterChoice; split <;> rfl
@[simp] theorem afterChoice_fresh (s : State) : (afterChoice s).fresh = s.fresh := by unfold afterChoice; split <;> rfl

end Sys2Proof.Machine
end

