-- ==== Sys2Proof/Laws/Ops.lean ====
section
/-! SUPPORT. One lemma per shared operation that says once everything it can do: when it answers a next state, and which. -/

namespace Sys2Proof.Machine

@[simp] theorem andThen_next (s : State) (f : State → Result) : andThen (.next s) f = f s := rfl
@[simp] theorem andThen_fault (e : Fault) (f : State → Result) : andThen (.fault e) f = .fault e := rfl
@[simp] theorem andThen_refused (e : Refusal) (f : State → Result) : andThen (.refused e) f = .refused e := rfl

theorem andThen_eq_next {r : Result} {f : State → Result} {t : State} :
    andThen r f = .next t ↔ ∃ s, r = .next s ∧ f s = .next t := by
  cases r <;> simp [andThen]

theorem andThen_eq_fault {r : Result} {f : State → Result} {e : Fault} :
    andThen r f = .fault e ↔ r = .fault e ∨ ∃ s, r = .next s ∧ f s = .fault e := by
  cases r <;> simp [andThen]

theorem andThen_eq_refused {r : Result} {f : State → Result} {e : Refusal} :
    andThen r f = .refused e ↔ r = .refused e ∨ ∃ s, r = .next s ∧ f s = .refused e := by
  cases r <;> simp [andThen]

theorem andThen_assoc (r : Result) (f g : State → Result) :
    andThen (andThen r f) g = andThen r fun s => andThen (f s) g := by
  cases r <;> rfl

theorem writeScan_next {i : Nat} {b : Byte} {s t : State} :
    writeScan i b s = .next t ↔
      s.running = false ∧ i < s.cfg.scanCap.toNat ∧ t = { s with scan := s.scan.write i b } := by
  unfold writeScan
  split
  · simp_all
  · split <;> simp_all [@eq_comm _ t]

theorem readScan_next {i : Nat} {f : Byte → State → Result} {s t : State} :
    readScan i f s = .next t ↔ i < s.cfg.scanCap.toNat ∧ f (scanValue i s) (scanTouch i s) = .next t := by
  unfold readScan
  split <;> simp_all

theorem readScan_fault {i : Nat} {f : Byte → State → Result} {s : State} {e : Fault} :
    readScan i f s = .fault e ↔
      (s.cfg.scanCap.toNat ≤ i ∧ e = .scanRange i s) ∨
      (i < s.cfg.scanCap.toNat ∧ f (scanValue i s) (scanTouch i s) = .fault e) := by
  unfold readScan
  split
  · rename_i h
    simp [h]
  · rename_i h
    simp [h, Nat.le_of_not_lt h, @eq_comm _ e]

/-- Reading a byte that has been written gives it and changes nothing. -/
theorem scanTouch_of_written {i : Nat} {b : Byte} {s : State} (h : s.scan.read i = some b) : scanTouch i s = s := by
  simp [scanTouch, h]

theorem scanValue_of_written {i : Nat} {b : Byte} {s : State} (h : s.scan.read i = some b) : scanValue i s = b := by
  simp [scanValue, h]

theorem readTable_next {i : Nat} {f : U16 → State → Result} {s t : State} :
    readTable i f s = .next t ↔ ∃ d, s.cfg.table[i]? = some d ∧ f d s = .next t := by
  unfold readTable
  split <;> simp_all

theorem readTable_fault {i : Nat} {f : U16 → State → Result} {s : State} {e : Fault} :
    readTable i f s = .fault e ↔
      (s.cfg.table.length ≤ i ∧ e = .tableRange i s) ∨ ∃ d, s.cfg.table[i]? = some d ∧ f d s = .fault e := by
  unfold readTable
  split
  · rename_i d h
    have hlt : i < s.cfg.table.length := (List.getElem?_eq_some_iff.mp h).1
    simp [h, Nat.not_le.mpr hlt]
  · rename_i h
    have hge := List.getElem?_eq_none_iff.mp h
    simp [hge, @eq_comm _ e]

theorem setLatches_next {a : Axis} {p : PhysDir} {s t : State} :
    setLatches a p s = .next t ↔ s.running = false ∧ t = { s with axis := a, physDir := p } := by
  unfold setLatches
  split <;> simp_all [@eq_comm _ t]

theorem timerProgram_next {d : U16} {s t : State} :
    timerProgram d s = .next t ↔
      s.cfg.pulseWidth < d ∧ t = { s with tmr := { s.tmr with cmpStart := d, cmpEnd := d - s.cfg.pulseWidth } } := by
  unfold timerProgram
  split
  · rename_i h
    simp [BitVec.not_lt.mpr h]
  · rename_i h
    simp [BitVec.not_le.mp h, @eq_comm _ t]

/-- The state a successful `arm_move` leaves (R123). -/
theorem armMove_next {mode : MoveMode} {dir : Direction} {total delay offset : U16} {s t : State} :
    armMove mode dir total delay offset s = .next t ↔
      s.running = false ∧ total ≠ 0 ∧ s.cfg.pulseWidth < delay ∧
      t =
        { s with
          mc :=
            { mode := modeReg mode, direction := dir, stepIndex := startIndex dir total, totalSteps := total,
              scanlineOffset := offset }
          tmr := { run := true, cmpStart := delay, cmpEnd := delay - s.cfg.pulseWidth, next := s.cfg.firstEvent }
          running := true } := by
  unfold armMove
  split
  · simp_all
  · split
    · simp_all
    · split
      · rename_i h
        simp [BitVec.not_lt.mpr h]
      · rename_i hr ht hd
        simp only [Host.Outcome.next.injEq, BitVec.not_le.mp hd, true_and, @eq_comm _ t]
        simp_all [launch, timerStart, populate]

/-- The faults of `arm_move`, in the order of R257; each leaves the state as it was (R252). -/
theorem armMove_fault {mode : MoveMode} {dir : Direction} {total delay offset : U16} {s : State} {e : Fault} :
    armMove mode dir total delay offset s = .fault e ↔
      (s.running = true ∧ e = .rearm s) ∨
      (s.running = false ∧ total = 0 ∧ e = .zeroSteps s) ∨
      (s.running = false ∧ total ≠ 0 ∧ delay ≤ s.cfg.pulseWidth ∧ e = .delayTooShort delay s) := by
  unfold armMove
  split
  · simp_all [@eq_comm _ e]
  · split
    · simp_all [@eq_comm _ e]
    · split <;> simp_all [@eq_comm _ e]

theorem armMove_not_refused {mode : MoveMode} {dir : Direction} {total delay offset : U16} {s : State} {e : Refusal} :
    armMove mode dir total delay offset s ≠ .refused e := by
  unfold armMove
  split
  · simp
  · split
    · simp
    · split <;> simp

theorem moveAndWait_next {mode : MoveMode} {dir : Direction} {total delay offset : U16} {s t : State} :
    moveAndWait mode dir total delay offset s = .next t ↔
      ∃ u, armMove mode dir total delay offset s = .next u ∧ t = push [.wait] u := by
  unfold moveAndWait
  rw [andThen_eq_next]
  simp [@eq_comm _ t]

theorem preload_next {v : Byte} {s t : State} :
    preload v s = .next t ↔ s.running = false ∧ t = { s with pwm := { s.pwm with duty := v } } := by
  unfold preload
  split <;> simp_all [@eq_comm _ t]

theorem writeOutput_next {v : Bool} {s t : State} :
    writeOutput v s = .next t ↔ s.running = false ∧ t = setOutput v s := by
  unfold writeOutput
  split <;> simp_all [@eq_comm _ t]

/-- What a pulse-end event does (R125): completes, or dispatches in the state after the advance. -/
theorem pulseEndEvent_next {dispatch : State → Result} {s t : State} :
    pulseEndEvent dispatch s = .next t ↔
      (moveDone s.mc = true ∧ t = complete (endPulse s)) ∨
      (moveDone s.mc = false ∧
        ∃ u, dispatch (endPulse s) = .next u ∧ t = { u with tmr := { u.tmr with next := .pulseStart } }) := by
  unfold pulseEndEvent
  split
  · simp_all [@eq_comm _ t]
  · rw [andThen_eq_next]
    simp_all [@eq_comm _ t]

/-- The three answers of a set command (R194, R195). -/
theorem setCommand_cases (c : Selector) (a : Arg) (s : State) :
    (a.valid = true ∧ a.acc ≤ setLimit s.cfg c ∧
      setCommand c a s =
        toSentinel (reply .ack { s with jp := setRegister (BitVec.ofNat 16 a.acc) s.jp c })) ∨
    (a.valid = true ∧ setLimit s.cfg c < a.acc ∧ setCommand c a s = toSentinel (reply .nak s)) ∨
    (a.valid = false ∧ setCommand c a s = toSentinel (reply .err s)) := by
  unfold setCommand
  split
  · split
    · exact .inl ⟨by assumption, by assumption, rfl⟩
    · exact .inr (.inl ⟨by assumption, by omega, rfl⟩)
  · exact .inr (.inr ⟨by simp_all, rfl⟩)

/-- The answers of `start_job` (R231). -/
theorem beginJob_cases (s : State) :
    (startRefused s = true ∧ beginJob s = .next (reply .nak s)) ∨
    (startRefused s = false ∧ s.jp.backlash ≠ 0 ∧ beginJob s = .refused .backlash) ∨
    (startRefused s = false ∧ s.jp.backlash = 0 ∧ s.jp.imageHeight = 0 ∧
      beginJob s = .next (endJob { reply .ack s with job := { s.job with line := 0 } })) ∨
    (startRefused s = false ∧ s.jp.backlash = 0 ∧ s.jp.imageHeight ≠ 0 ∧
      beginJob s = .next { reply .ack s with job := { s.job with line := 0, phase := .reqLine } }) := by
  unfold beginJob
  split
  · exact .inl ⟨by assumption, rfl⟩
  · split
    · exact .inr (.inl ⟨by simp_all, by assumption, rfl⟩)
    · split
      · exact .inr (.inr (.inl ⟨by simp_all, by simp_all, by assumption, rfl⟩))
      · exact .inr (.inr (.inr ⟨by simp_all, by simp_all, by assumption, rfl⟩))

@[simp] theorem storeLine_nil (s : State) : storeLine [] s = .next s := rfl

theorem storeLine_cons (b : Byte) (bs : List Byte) (s : State) :
    storeLine (b :: bs) s =
      andThen (writeScan s.job.col.toNat b s) fun t =>
        storeLine bs { t with job := { t.job with col := t.job.col + 1 } } := rfl

theorem rxRead_nil {f : Byte → State → Result} {s : State} (h : s.rx = []) : rxRead f s = .next s := by
  simp [rxRead, h]

theorem rxRead_cons {f : Byte → State → Result} {s : State} {b : Byte} {rest : List Byte} (h : s.rx = b :: rest) :
    rxRead f s = f b { s with rx := rest } := by
  simp [rxRead, h]

/-- The length of a ramp never exceeds the table (R166). -/
theorem rampLength_le (table : List U16) (rate : U16) : rampLength table rate ≤ table.length := by
  induction table with
  | nil => simp [rampLength]
  | cons d ds ih =>
    rw [rampLength, List.length_cons]
    split <;> omega

theorem extendsArg_iff {nd : Nat} {b : Byte} :
    extendsArg nd b = true ↔ isDigit b = true ∧ nd < 5 := by
  unfold extendsArg Config.maxDigits
  rw [Bool.and_eq_true, decide_eq_true_eq]

theorem digitValue_lt {b : Byte} (h : isDigit b = true) : digitValue b < 10 := by
  unfold isDigit at h
  simp only [Bool.and_eq_true, decide_eq_true_eq, BitVec.le_def] at h
  unfold digitValue
  have := h.2
  simp at this
  omega

/-- FOREGROUND with nothing pending leaves the phase it is in. -/
@[simp] theorem resume_nil (s : State) : resume [] s = leavePhase s := rfl

theorem resume_cons (t : Task) (rest : List Task) (s : State) :
    resume (t :: rest) s =
      andThen (runTask t { s with agenda := rest }) fun u =>
        if u.running || decide (t = .lineRead) then .next u else resume rest u := rfl

/-- FOREGROUND holds in a wait while a move is active, and nothing changes (R133, R15). -/
theorem resume_wait_running {rest : List Task} {s : State} (ha : s.agenda = .wait :: rest) (hr : s.running = true) :
    resume (.wait :: rest) s = .next s := by
  have h : runTask .wait { s with agenda := rest } = .next s := by
    change execWaitDone { s with agenda := rest } = .next s
    rw [execWaitDone, if_pos hr]
    simp [push, ← ha]
  rw [resume_cons, h, andThen_next, hr]
  rfl

/-- A wait that finds the engine idle is no step of its own: FOREGROUND goes on (R237). -/
theorem resume_wait_idle {rest : List Task} {s : State} (hr : s.running = false) :
    resume (.wait :: rest) s = resume rest { s with agenda := rest } := by
  have h : runTask .wait { s with agenda := rest } = .next { s with agenda := rest } := by
    change execWaitDone { s with agenda := rest } = .next { s with agenda := rest }
    simp [execWaitDone, hr]
  rw [resume_cons, h, andThen_next]
  simp [hr]

/-- The state a step leaves is the one its turn leaves in the state after the choice of that turn. -/
theorem step_eq (s : State) : step s = takeTurn (nextTurn s) (afterChoice s) := rfl

/-- An event that is due gets the turn (R122). -/
theorem nextTurn_of_due {s : State} (ht : s.turns = []) (hd : timerDue s = true) : nextTurn s = .timer := by
  simp [nextTurn, ht, freeTurn, hd]

end Sys2Proof.Machine
end

