-- ==== Sys2Proof/Laws/PerInstr.lean ====
section
/-! SUPPORT. A statement about every instruction as syntax, one lemma per constructor: a message of the command or the
reply stream begins with the sentinel, a payload is its own bytes, and an instruction that travels on no stream has no
bytes (R91, R93, R94, R95). -/

namespace Sys2Proof.Laws.Framing

/-- How the encoding of an instruction is framed on the stream it travels on. -/
def Statement (i : Instr) : Prop :=
  match wireOf i with
  | some .command => ∃ rest, encode i = sentinel :: rest ∧ 1 ≤ rest.length
  | some .reply => ∃ sel, encode i = [sentinel, sel]
  | some (.payload n) => (encode i).length = n
  | none => encode i = []

theorem set_framed (c : Selector) (a : Arg) : ∃ rest, encodeSet c a = sentinel :: rest ∧ 1 ≤ rest.length :=
  ⟨_, rfl, by simp⟩

theorem handshake : Statement .handshake := ⟨_, rfl, by simp⟩
theorem setX (a : Arg) : Statement (.setX a) := set_framed .x a
theorem setY (a : Arg) : Statement (.setY a) := set_framed .y a
theorem setP (a : Arg) : Statement (.setP a) := set_framed .p a
theorem setB (a : Arg) : Statement (.setB a) := set_framed .b a
theorem setS (a : Arg) : Statement (.setS a) := set_framed .s a
theorem setR (a : Arg) : Statement (.setR a) := set_framed .r a
theorem setV (a : Arg) : Statement (.setV a) := set_framed .v a
theorem start : Statement .start := ⟨_, rfl, by simp⟩
theorem unknown (sel : Byte) : Statement (.unknown sel) := ⟨_, rfl, by simp⟩
theorem payload (bytes : List Byte) : Statement (.payload bytes) := rfl
theorem hsAck : Statement .hsAck := ⟨_, rfl⟩
theorem ack : Statement .ack := ⟨_, rfl⟩
theorem nak : Statement .nak := ⟨_, rfl⟩
theorem lineReady : Statement .lineReady := ⟨_, rfl⟩
theorem err : Statement .err := ⟨_, rfl⟩
theorem pulseStart : Statement .pulseStart := rfl
theorem pulseEndNormal : Statement .pulseEndNormal := rfl
theorem pulseEndFromTable : Statement .pulseEndFromTable := rfl
theorem pulseEndRaster : Statement .pulseEndRaster := rfl
theorem armMove (mode : MoveMode) (dir : Direction) (total delay offset : U16) :
    Statement (.armMove mode dir total delay offset) := rfl
theorem waitDone : Statement .waitDone := rfl
theorem laserPreload (v : Byte) : Statement (.laserPreload v) := rfl
theorem laserEnable : Statement .laserEnable := rfl
theorem laserDisable : Statement .laserDisable := rfl
theorem rasterMove (w offset : U16) (dir : Direction) (rate : U16) : Statement (.rasterMove w offset dir rate) := rfl
theorem rampScan (rate : U16) : Statement (.rampScan rate) := rfl
theorem flatMove (n rate : U16) : Statement (.flatMove n rate) := rfl
theorem accelerate (rate padSteps : U16) : Statement (.accelerate rate padSteps) := rfl
theorem decelerate (rate padSteps : U16) : Statement (.decelerate rate padSteps) := rfl
theorem startJob : Statement .startJob := rfl
theorem readLine : Statement .readLine := rfl
theorem advanceSecondary : Statement .advanceSecondary := rfl

end Sys2Proof.Laws.Framing
end

