-- ==== Sys2Proof/Tests/Slice0.lean ====
section
/-! SUPPORT. The model's own tests: terms WellFormed refuses, words written out from the tables of spec/30_encoding.md, one
step at a time of each instruction with the values of spec/95_test_vectors.md, and a witness for the hypotheses of every
statement. The fixture is the spec's own (its section 2): table T8, pulse width 10. -/

namespace Sys2Proof.Tests

open Sys2Proof Sys2Proof.Machine

/-! ### Small states -/

/-- The fixture T8. -/
def fixture : Params := { table := [1000, 414, 318, 268, 236, 213, 196, 183], pulseWidth := 10 }

/-- The fixture right after reset. -/
def idle : State := State.resetWith fixture

/-- The fixture with three pixels in SCAN (V14). -/
def loaded : State := { idle with scan := [(0, 10), (1, 20), (2, 30)] }

/-- A move in progress, at its pulse-end edge. -/
def moving (mode : ModeReg) (dir : Direction) (index total : U16) : State :=
  { loaded with
    mc := { mode := mode, direction := dir, stepIndex := index, totalSteps := total, scanlineOffset := 0 }
    tmr := { run := true, cmpStart := 500, cmpEnd := 490, next := .pulseEnd }
    running := true, stepOut := true, pwm := { duty := 30, run := true, connected := true } }

/-- A job of two lines of three pixels, in a phase. -/
def inJob (p : JobPhase) : State :=
  { loaded with
    jp :=
      { outWidth := 3, imageHeight := 2, pixelWidth := 0, backlash := 0, pitch := 4, rampLen := 8, velocity := 236 }
    job := { phase := p, line := 0, col := 3, k := 5 }, ps := { idle.ps with state := .awaitSelector } }

/-- The parser in a state, with these bytes waiting. -/
def parser (st : ParserState) (bytes : List Byte) : State := { idle with ps := { idle.ps with state := st }, rx := bytes }

/-- What a next state shows. -/
def see {α : Type} (f : State → α) (r : Result) : Option α :=
  match r with
  | .next s => some (f s)
  | .fault _ => none
  | .refused _ => none

/-- What the state shows that a fault leaves at the point where it is raised (R252), of an out-of-range table index. -/
def seeTableFault {α : Type} (f : State → α) (r : Result) : Option (Nat × α) :=
  match r with
  | .fault (.tableRange i left) => some (i, f left)
  | _ => none

/-- The refusal a result is. -/
def refusalOf (r : Result) : Option Refusal :=
  match r with
  | .next _ => none
  | .fault _ => none
  | .refused e => some e

/-! ### WellFormed refuses -/

theorem test_wf_six_digits : (Instr.setX ⟨6, 0, 0x3B⟩).wf = false := by decide
theorem test_wf_value_too_long_for_its_digits : (Instr.setY ⟨1, 10, 0x3B⟩).wf = false := by decide
theorem test_wf_argument_not_ended : (Instr.setP ⟨4, 1000, 0x35⟩).wf = false := by decide
theorem test_wf_set_b : (Instr.setB ⟨0, 1, 0x3B⟩).wf = false := by decide
theorem test_wf_set_s : (Instr.setS ⟨6, 5, 0x61⟩).wf = false := by decide
theorem test_wf_set_r : (Instr.setR ⟨2, 100, 0x3B⟩).wf = false := by decide
theorem test_wf_set_v : (Instr.setV ⟨0, 0, 0x30⟩).wf = false := by decide
theorem test_wf_unknown_is_not_known :
    (Instr.unknown 0x23).wf = false ∧ (Instr.unknown 0x21).wf = false ∧ (Instr.unknown 0x58).wf = false := by decide
theorem test_wf_empty_payload : (Instr.payload []).wf = false := by decide
theorem test_wf_payload_too_long : (Instr.payload (List.replicate 65536 0)).wf = false := by
  rw [Instr.wf, List.length_replicate]
  decide
/-- A sixth digit is the byte that ends a malformed argument (V59). -/
theorem test_wf_sixth_digit_ends : (Instr.setX ⟨5, 12345, 0x36⟩).wf = true := by decide

/-! ### Words written out from R98, R99 and R103 -/

theorem test_decode_handshake : decode .command [0x23, 0x23] = .ok (.handshake, []) := by decide
theorem test_decode_set_x : decode .command [0x23, 0x58, 0x31, 0x30, 0x30, 0x30, 0x3B] = .ok (.setX ⟨4, 1000, 0x3B⟩, []) := by
  decide
theorem test_decode_set_y : decode .command [0x23, 0x59, 0x31, 0x30, 0x30, 0x3B] = .ok (.setY ⟨3, 100, 0x3B⟩, []) := by decide
theorem test_decode_set_p : decode .command [0x23, 0x50, 0x35, 0x30, 0x30, 0x3B] = .ok (.setP ⟨3, 500, 0x3B⟩, []) := by decide
theorem test_decode_set_b : decode .command [0x23, 0x42, 0x30, 0x3B] = .ok (.setB ⟨1, 0, 0x3B⟩, []) := by decide
theorem test_decode_set_s : decode .command [0x23, 0x53, 0x34, 0x3B] = .ok (.setS ⟨1, 4, 0x3B⟩, []) := by decide
theorem test_decode_set_r : decode .command [0x23, 0x52, 0x38, 0x3B] = .ok (.setR ⟨1, 8, 0x3B⟩, []) := by decide
theorem test_decode_set_v : decode .command [0x23, 0x56, 0x32, 0x33, 0x36, 0x3B] = .ok (.setV ⟨3, 236, 0x3B⟩, []) := by decide
theorem test_decode_start : decode .command [0x23, 0x21] = .ok (.start, []) := by decide
theorem test_decode_unknown : decode .command [0x23, 0x78, 0x35, 0x3B] = .ok (.unknown 0x78, [0x35, 0x3B]) := by decide
theorem test_decode_payload : decode (.payload 2) [0x23, 0x21, 0x58] = .ok (.payload [0x23, 0x21], [0x58]) := by decide
theorem test_decode_hs_ack : decode .reply [0x23, 0x23] = .ok (.hsAck, []) := by decide
theorem test_decode_ack : decode .reply [0x23, 0x59] = .ok (.ack, []) := by decide
theorem test_decode_nak : decode .reply [0x23, 0x4E] = .ok (.nak, []) := by decide
theorem test_decode_line_ready : decode .reply [0x23, 0x44] = .ok (.lineReady, []) := by decide
theorem test_decode_err : decode .reply [0x23, 0x3F] = .ok (.err, []) := by decide
/-- Six digits: the message ends at the sixth (V59). -/
theorem test_decode_six_digits :
    decode .command [0x23, 0x58, 0x31, 0x32, 0x33, 0x34, 0x35, 0x36, 0x3B] = .ok (.setX ⟨5, 12345, 0x36⟩, [0x3B]) := by decide
theorem test_decode_rejects :
    decode .command [0x58, 0x35] = .error (.badSentinel 0x58) ∧ decode .command [0x23] = .error .truncated ∧
    decode .command [0x23, 0x58, 0x31] = .error .truncated ∧ decode .reply [0x23, 0x58] = .error (.notAReply 0x58) ∧
    decode (.payload 0) [0x01] = .error .emptyPayload := by decide
/-- R107: the byte sent first is in bits 15 to 8. -/
theorem test_table_words :
    decodeTableWord 16 0x2323 = some .handshake ∧ decodeTableWord 16 0x2321 = some .start ∧
    decodeTableWord 16 0x2358 = some (.setX ⟨0, 0, 0⟩) ∧ decodeTableWord 16 0x2351 = some (.unknown 0x51) ∧
    decodeTableWord 16 0x5823 = none := by decide
/-- R100. -/
theorem test_enumeration_numbers :
    modeCode .raster = 2 ∧ modeCode .reserved = 3 ∧ directionCode .reverse = 1 ∧ eventCode .pulseEnd = 1 ∧
    axisCode .y = 1 ∧ physDirCode .neg = 1 ∧ parserStateCode .readArg = 2 := by decide

/-! ### One step of each instruction -/

theorem test_handshake : see (·.tx) (exec .handshake idle) = some [0x23, 0x23] := by decide
/-- V50 and V51: the capacity is accepted, one more is not. -/
theorem test_set_x :
    see (fun s => (s.jp.outWidth, s.tx)) (exec (.setX ⟨4, 1024, 0x3B⟩) idle) = some (1024, [0x23, 0x59]) ∧
    see (fun s => (s.jp.outWidth, s.tx)) (exec (.setX ⟨4, 1025, 0x3B⟩) idle) = some (0, [0x23, 0x4E]) := by decide
/-- V52 and V53. -/
theorem test_set_y :
    see (fun s => (s.jp.imageHeight, s.tx)) (exec (.setY ⟨5, 65535, 0x3B⟩) idle) = some (65535, [0x23, 0x59]) ∧
    see (fun s => (s.jp.imageHeight, s.tx)) (exec (.setY ⟨5, 65536, 0x3B⟩) idle) = some (0, [0x23, 0x4E]) := by decide
theorem test_set_p : see (fun s => (s.jp.pixelWidth, s.jp.outWidth)) (exec (.setP ⟨3, 500, 0x3B⟩) idle) = some (500, 0) := by decide
theorem test_set_b : see (·.jp.backlash) (exec (.setB ⟨1, 7, 0x3B⟩) idle) = some 7 := by decide
theorem test_set_s : see (·.jp.pitch) (exec (.setS ⟨1, 4, 0x3B⟩) idle) = some 4 := by decide
theorem test_set_r : see (·.jp.rampLen) (exec (.setR ⟨1, 8, 0x3B⟩) idle) = some 8 := by decide
/-- V48, V55. -/
theorem test_set_v :
    see (·.jp.velocity) (exec (.setV ⟨3, 236, 0x3B⟩) idle) = some 236 ∧
    see (fun s => (s.jp.velocity, s.tx)) (exec (.setV ⟨5, 99999, 0x3B⟩) idle) = some (65535, [0x23, 0x4E]) := by decide
/-- V58, V60: no digit; an invalid byte. -/
theorem test_malformed :
    see (·.tx) (exec (.setX ⟨0, 0, 0x3B⟩) idle) = some [0x23, 0x3F] ∧
    see (·.tx) (exec (.setX ⟨0, 0, 0x61⟩) idle) = some [0x23, 0x3F] := by decide
/-- V49: width 0. -/
theorem test_start_refused : see (fun s => (s.tx, s.job.phase)) (exec .start idle) = some ([0x23, 0x4E], .none) := by decide
theorem test_start :
    see (fun s => (s.tx, s.job.phase, s.job.line)) (exec .start (inJob .none)) = some ([0x23, 0x59], .reqLine, 0) := by decide
theorem test_unknown : see (fun s => (s.tx, s.ps.state)) (exec (.unknown 0x51) idle) = some ([0x23, 0x3F], .awaitSentinel) := by
  decide
theorem test_payload :
    see (fun s => (s.scan, s.job.col, s.tx)) (exec (.payload [0x23, 0x21]) idle) = some ([(0, 0x23), (1, 0x21)], 2, []) := by decide
theorem test_payload_during_a_move :
    exec (.payload [1]) (moving .raster .forward 0 3) = .fault (.singleWriterScan (moving .raster .forward 0 3)) := rfl
theorem test_replies :
    see (·.tx) (exec .hsAck idle) = some [0x23, 0x23] ∧ see (·.tx) (exec .ack idle) = some [0x23, 0x59] ∧
    see (·.tx) (exec .nak idle) = some [0x23, 0x4E] ∧ see (·.tx) (exec .lineReady idle) = some [0x23, 0x44] ∧
    see (·.tx) (exec .err idle) = some [0x23, 0x3F] := by decide
/-- R124's example, with the laser on. -/
theorem test_pulse_start :
    see (fun s => (s.stepOut, s.tmr.next, s.pulses))
        (exec .pulseStart { moving .normal .forward 0 3 with tmr := ⟨true, 500, 490, .pulseStart⟩ }) =
      some (true, .pulseEnd, [⟨.x, .pos, 500, 30⟩]) := by decide
/-- V13: the last forward step, and the last reverse one. -/
theorem test_pulse_end_normal :
    see (fun s => (s.mc.stepIndex, s.running, s.stepOut)) (exec .pulseEndNormal (moving .normal .forward 2 3)) =
      some (3, false, false) ∧
    see (fun s => (s.mc.stepIndex, s.running, s.tmr.run)) (exec .pulseEndNormal (moving .normal .reverse 0 3)) =
      some (65535, false, false) := by decide
/-- V10, event 2: the delay of the NEW index. -/
theorem test_pulse_end_from_table :
    see (fun s => (s.mc.stepIndex, s.tmr)) (exec .pulseEndFromTable (moving .fromTable .forward 0 3)) =
      some (1, ⟨true, 414, 404, .pulseStart⟩) := by decide
/-- V16 and V17, R252: the access out of range, with the step output fallen and the index advanced, and nothing later. -/
theorem test_pulse_end_from_table_range :
    seeTableFault (fun s => (s.stepOut, s.mc.stepIndex, s.running, s.tmr))
        (exec .pulseEndFromTable (moving .fromTable .forward 7 9)) =
      some (8, false, 8, true, ⟨true, 500, 490, .pulseEnd⟩) := by decide
/-- V14, event 2. -/
theorem test_pulse_end_raster :
    see (fun s => (s.mc.stepIndex, s.pwm.duty, s.tmr.cmpStart)) (exec .pulseEndRaster (moving .raster .reverse 2 3)) =
      some (1, 20, 500) := by decide
/-- R123's example, and V15. -/
theorem test_arm_move :
    see (fun s => (s.mc.stepIndex, s.tmr, s.running)) (exec (.armMove .normal .forward 3 500 0) idle) =
      some (0, ⟨true, 500, 490, .pulseStart⟩, true) ∧
    see (·.tmr.cmpEnd) (exec (.armMove .normal .forward 1 11 0) idle) = some 1 := by decide
theorem test_arm_move_faults :
    exec (.armMove .normal .forward 0 500 0) (moving .normal .forward 0 3) = .fault (.rearm (moving .normal .forward 0 3)) ∧
    exec (.armMove .normal .forward 0 500 0) idle = .fault (.zeroSteps idle) ∧
    exec (.armMove .normal .forward 1 10 0) idle = .fault (.delayTooShort 10 idle) := ⟨rfl, rfl, rfl⟩
/-- V18. -/
theorem test_wait_done :
    see (·.agenda) (exec .waitDone idle) = some [] ∧
    see (·.agenda) (exec .waitDone (moving .normal .forward 0 3)) = some [.wait] := by decide
theorem test_laser_preload : see (fun s => (s.pwm.duty, laserOut s)) (exec (.laserPreload 30) idle) = some (30, 0) := by decide
theorem test_laser_enable : see laserOut (exec .laserEnable { idle with pwm := ⟨30, false, false⟩ }) = some 30 := by decide
theorem test_laser_disable :
    see (fun s => (laserOut s, s.pwm.duty)) (exec .laserDisable { idle with pwm := ⟨10, true, true⟩ }) = some (0, 10) := by decide
/-- V21 (offset 0): the last entry is served first. -/
theorem test_raster_move :
    see (fun s => (s.pwm.duty, s.mc.stepIndex, s.agenda)) (exec (.rasterMove 3 0 .reverse 500) loaded) =
      some (30, 2, [.wait, .laserOff]) := by decide
/-- V24. -/
theorem test_raster_move_range : exec (.rasterMove 1 1024 .forward 500) idle = .fault (.scanRange 1024 idle) := rfl
/-- R237: the step at which the wait of phase RASTER lifts disables the laser and arms the decelerating flat. -/
theorem test_raster_phase_is_left_in_one_step :
    see (fun s => (s.job.phase, laserOut s, s.mc.totalSteps, s.agenda))
        (stepAs .foreground { inJob .raster with agenda := [.wait, .laserOff], pwm := ⟨30, true, true⟩ }) =
      some (.decelFlat, 0, 3, [.wait, .decelRamp]) := by decide
/-- V30. -/
theorem test_ramp_scan :
    see (·.job.k) (exec (.rampScan 236) idle) = some 5 ∧ see (·.job.k) (exec (.rampScan 237) idle) = some 4 ∧
    see (·.job.k) (exec (.rampScan 1001) idle) = some 0 ∧ see (·.job.k) (exec (.rampScan 183) idle) = some 8 := by decide
/-- V30, its table that is not non-increasing. -/
theorem test_ramp_scan_stops : rampLength [1000, 200, 500] 300 = 1 := by decide
/-- V39. -/
theorem test_flat_move :
    see (fun s => (s.mc.totalSteps, s.agenda)) (exec (.flatMove 3 236) idle) = some (3, [.wait]) ∧
    exec (.flatMove 0 236) idle = .fault (.zeroSteps idle) := ⟨by decide, rfl⟩
/-- V31. -/
theorem test_accelerate :
    see (fun s => (s.mc.totalSteps, s.tmr.cmpStart, s.job.k, s.agenda)) (exec (.accelerate 236 8) idle) =
      some (6, 1000, 5, [.wait, .cruise 236 8]) := by decide
/-- V31, V34. -/
theorem test_decelerate :
    see (fun s => (s.mc.totalSteps, s.tmr.cmpStart, s.agenda)) (exec (.decelerate 236 8) idle) =
      some (3, 236, [.wait, .decelRamp]) ∧
    see (fun s => (s.mc.stepIndex, s.tmr.cmpStart, s.agenda)) (exec (.decelerate 236 5) idle) = some (5, 213, [.wait]) := by decide
theorem test_start_job_backlash :
    refusalOf (exec .startJob { inJob .none with jp := { (inJob .none).jp with backlash := 1 } }) = some .backlash := by decide
theorem test_start_job : see (·.job.phase) (exec .startJob (inJob .none)) = some .reqLine := by decide
theorem test_read_line : see (fun s => (s.job.col, s.job.phase)) (exec .readLine (inJob .reqLine)) = some (0, .readLine) := by decide
theorem test_advance_secondary :
    see (fun s => (s.axis, s.mc.totalSteps, s.job.phase)) (exec .advanceSecondary (inJob .decelRamp)) = some (.y, 4, .pitch) ∧
    see (·.running) (exec .advanceSecondary idle) = some false := by decide
/-- A placed word is what the next step runs. -/
theorem test_with_fetch_word : see (·.tx) (step (idle.withFetchWord 16 0x2323)) = some [0x23, 0x23] := by decide

/-! ### Witnesses: concrete states and operands that meet the hypotheses of each statement, one for each of its clauses -/

/-- The fixture meets R7 to R10. -/
theorem fixture_valid : fixture.Valid := by
  refine ⟨by decide, by decide, by decide, ?_, by decide, by decide, by decide⟩
  simp [fixture]

theorem witness_DecodeInvertsEncode :
    ((Instr.setV ⟨5, 99999, 0x3B⟩).wf = true ∧ wireOf (.setV ⟨5, 99999, 0x3B⟩) = some .command) ∧
    ((Instr.payload [7]).wf = true ∧ wireOf (.payload [7]) = some (.payload 1)) ∧
    (Instr.err.wf = true ∧ wireOf .err = some .reply) := by decide

theorem witness_AcceptedBytesAreTheEncoding :
    decodeCommand [0x23, 0x58, 0x31, 0x3B, 0x07] = .ok (.setX ⟨1, 1, 0x3B⟩, [0x07]) ∧
    decodeCommand [0x23, 0x59, 0x3B] = .ok (.setY ⟨0, 0, 0x3B⟩, []) ∧
    decodeCommand [0x23, 0x51] = .ok (.unknown 0x51, []) := by decide

/-- A set command, then a two-byte one, from the sentinel scan with bytes after the message. -/
theorem witness_ParserExecutesWhatTheDecoderReads :
    (let s := parser .awaitSentinel [0x23, 0x58, 0x31, 0x3B, 0x07]
     s.agenda = [] ∧ s.job.phase = .none ∧ s.ps.state = .awaitSentinel ∧
      decodeCommand s.rx = .ok (.setX ⟨1, 1, 0x3B⟩, [0x07]) ∧ setParts (.setX ⟨1, 1, 0x3B⟩) = some (.x, ⟨1, 1, 0x3B⟩)) ∧
    (let s := parser .awaitSentinel [0x23, 0x21]
     s.agenda = [] ∧ s.job.phase = .none ∧ s.ps.state = .awaitSentinel ∧
      decodeCommand s.rx = .ok (.start, []) ∧ setParts .start = none) := by decide

theorem witness_StepRunsTheInstruction_foreground :
    (let s := { parser .awaitSelector [0x21] with turns := [.foreground] }
     s.turns = .foreground :: [] ∧ s.agenda = [] ∧ s.job.phase = .none ∧ s.rx = 0x21 :: [] ∧
      s.ps.state = .awaitSelector ∧ selectorOf 0x21 = none) ∧
    (let s := { parser .readArg [0x3B] with turns := [.foreground] }
     s.turns = .foreground :: [] ∧ s.rx = 0x3B :: [] ∧ s.ps.state = .readArg ∧ isDigit 0x3B = false) ∧
    (let s := { parser .readArg [0x36] with turns := [.foreground], ps := ⟨.readArg, .x, 12345, 5⟩ }
     s.turns = .foreground :: [] ∧ s.rx = 0x36 :: [] ∧ s.ps.state = .readArg ∧ 5 ≤ s.ps.nd) := by decide

theorem witness_StepRunsTheInstruction_timer :
    (let s := { moving .normal .forward 0 3 with tmr := ⟨true, 500, 490, .pulseStart⟩, turns := [.timer] }
     s.turns = .timer :: [] ∧ s.tmr.run = true ∧ s.tmr.next = .pulseStart) ∧
    (∀ m ∈ [ModeReg.normal, .fromTable, .raster],
      (let s := { moving m .forward 0 3 with turns := [.timer] }
       s.turns = .timer :: [] ∧ s.tmr.run = true ∧ s.tmr.next = .pulseEnd ∧ s.mc.mode = m)) := by decide

theorem witness_StepRunsTheInstruction_tasks :
    (let s := { moving .normal .forward 0 3 with turns := [.foreground], agenda := [.wait] }
     s.turns = .foreground :: [] ∧ s.agenda = .wait :: [] ∧ s.running = true) ∧
    (∀ k ∈ [Task.wait, .laserOff],
      (let s := { idle with turns := [.foreground], agenda := [k] }
       s.turns = .foreground :: [] ∧ s.agenda = k :: [] ∧ s.running = false)) := by decide

theorem witness_PlacedWordIsExecuted :
    decodeTableWord 16 0x2356 = some (.setV ⟨0, 0, 0⟩) ∧ decodeTableWord 16 0x2321 = some .start ∧
    decodeTableWord 16 0x2300 = some (.unknown 0) := by decide

/-- The capacity, one more, the register's bound and one more. -/
theorem witness_SetCommandsValidateTheirArgument :
    ((⟨4, 1024, 0x3B⟩ : Arg).term = 0x3B ∧ 1 ≤ (⟨4, 1024, 0x3B⟩ : Arg).nd) ∧
    1024 ≤ idle.cfg.scanCap.toNat ∧ idle.cfg.scanCap.toNat < 1025 ∧ 65535 ≤ 65535 ∧ 65535 < 65536 := by decide

theorem witness_MalformedArgumentIsAnsweredErr :
    ((⟨1, 1, 0x20⟩ : Arg).term ≠ 0x3B) ∧ (⟨0, 0, 0x3B⟩ : Arg).nd = 0 := by decide

/-- The first and the fifth digit, the lowest and the highest. -/
theorem witness_DigitJoinsTheArgument :
    ∀ b ∈ [0x30#8, 0x39#8], ∀ nd ∈ [0, 4],
      (let s := { parser .readArg [b, 0x3B] with ps := ⟨.readArg, .x, 0, nd⟩ }
       s.agenda = [] ∧ s.job.phase = .none ∧ s.ps.state = .readArg ∧ s.rx = b :: [0x3B] ∧
        0x30#8 ≤ b ∧ b ≤ 0x39#8 ∧ s.ps.nd < 5) := by decide

theorem witness_SentinelScan :
    (let s := parser .awaitSentinel []
     s.agenda = [] ∧ s.job.phase = .none ∧ s.ps.state = .awaitSentinel ∧ s.rx = []) ∧
    (parser .awaitSentinel [0x23]).rx = 0x23 :: [] ∧
    (let s := parser .awaitSentinel [0x22]
     s.rx = 0x22 :: [] ∧ (0x22 : Byte) ≠ 0x23 ∧ s.cfg.replyOnBadSentinel = true) ∧
    (let s := { parser .awaitSentinel [0x24] with cfg := { fixture with replyOnBadSentinel := false } }
     s.agenda = [] ∧ s.job.phase = .none ∧ s.ps.state = .awaitSentinel ∧ s.rx = 0x24 :: [] ∧ (0x24 : Byte) ≠ 0x23 ∧
      s.cfg.replyOnBadSentinel = false) := by decide

/-- A zero width; a velocity of exactly the pulse width; a job with backlash; a job of lines; a job of none, one above the
pulse width. -/
theorem witness_StartChecksTheJob :
    idle.jp.outWidth = 0 ∧
    (let s := { inJob .none with jp := { (inJob .none).jp with velocity := 10 } }
     s.jp.velocity ≤ s.cfg.pulseWidth) ∧
    (let s := { inJob .none with jp := { (inJob .none).jp with backlash := 1 } }
     s.jp.outWidth ≠ 0 ∧ s.cfg.pulseWidth < s.jp.velocity ∧ s.jp.backlash ≠ 0) ∧
    (let s := inJob .none
     s.jp.outWidth ≠ 0 ∧ s.cfg.pulseWidth < s.jp.velocity ∧ s.jp.backlash = 0 ∧ s.jp.imageHeight ≠ 0) ∧
    (let s := { inJob .none with jp := ⟨1, 0, 0, 0, 0, 0, 11⟩ }
     s.jp.outWidth ≠ 0 ∧ s.cfg.pulseWidth < s.jp.velocity ∧ s.jp.backlash = 0 ∧ s.jp.imageHeight = 0) := by decide

/-- The last two elements of the buffer. -/
theorem witness_PayloadIsStoredInOrder :
    (let s := { idle with job := ⟨.readLine, 0, 1022, 0⟩ }
     s.running = false ∧ s.job.col.toNat + ([1, 2] : List Byte).length ≤ s.cfg.scanCap.toNat) := by decide

/-- A store during a move, inside the buffer and past it; a store past it when idle; a first pixel past it, both ways. -/
theorem witness_ScanAccessesThatFault :
    (moving .raster .forward 0 3).running = true ∧
    (let s := { moving .raster .forward 0 3 with job := ⟨.readLine, 0, 1024, 0⟩ }
     s.running = true ∧ s.cfg.scanCap.toNat ≤ s.job.col.toNat) ∧
    (let s := { idle with job := ⟨.readLine, 0, 1024, 0⟩ }
     s.running = false ∧ s.cfg.scanCap.toNat ≤ s.job.col.toNat) ∧
    ((1 : U16) ≠ 0 ∧ 1024 = (1024 : U16).toNat + 0 ∧ idle.cfg.scanCap.toNat ≤ 1024) ∧
    ((2 : U16) ≠ 0 ∧ 1024 = (1023 : U16).toNat + ((2 : U16).toNat - 1)) := by decide

/-- Answered `#?`, and answered `#N`. -/
theorem witness_RejectedCommandsChangeOnlyTheParser :
    (wireOf (.unknown 0x51) = some .command ∧
      exec (.unknown 0x51) idle = .next { idle with tx := idle.tx ++ [0x23, 0x3F] }) ∧
    (wireOf .start = some .command ∧ exec .start idle = .next { idle with tx := idle.tx ++ [0x23, 0x4E] }) :=
  ⟨⟨rfl, rfl⟩, rfl, rfl⟩

theorem witness_TransmitStreamOnlyGrows :
    step { parser .awaitSelector [0x23] with turns := [.foreground] } = .next { idle with tx := [0x23, 0x23] } := rfl

theorem witness_TimeoutEndsABoundedRead :
    (parser .readArg [0x31]).rx ≠ [] ∧
    (let s := parser .awaitSentinel []
     s.rx = [] ∧ s.agenda = [] ∧ s.job.phase = .none ∧ s.ps.state = .awaitSentinel) ∧
    (let s := parser .awaitSelector []
     s.rx = [] ∧ s.agenda = [] ∧ s.job.phase = .none ∧ s.ps.state ≠ .awaitSentinel) ∧
    (let s := { inJob .readLine with job := ⟨.readLine, 0, 2, 0⟩ }
     s.rx = [] ∧ s.agenda = [] ∧ s.job.phase = .readLine ∧ s.job.col < s.jp.outWidth ∧ s.cfg.lineTimeoutAborts = true) ∧
    (let s :=
      { inJob .readLine with job := ⟨.readLine, 0, 0, 0⟩, cfg := { fixture with lineTimeoutAborts := false } }
     s.rx = [] ∧ s.agenda = [] ∧ s.job.phase = .readLine ∧ s.job.col < s.jp.outWidth ∧
      s.cfg.lineTimeoutAborts = false) ∧
    (let s := { inJob .none with job := ⟨.none, 0, 2, 0⟩, agenda := [.lineRead] }
     s.rx = [] ∧ s.job.col < s.jp.outWidth ∧ s.agenda.head? = some .lineRead ∧ s.cfg.lineTimeoutAborts = true) ∧
    (∀ s ∈ [inJob .readLine, { inJob .raster with agenda := [.wait] }, parser .awaitSentinel []],
      s.rx = [] ∧ ¬(s.agenda = [] ∧ s.job.phase = .none ∧ s.ps.state ≠ .awaitSentinel) ∧
        ¬(s.job.col < s.jp.outWidth ∧
          ((s.agenda = [] ∧ s.job.phase = .readLine) ∨ s.agenda.head? = some .lineRead))) := by decide

theorem witness_PulseStartAssertsAndRecords :
    (let s := { moving .normal .forward 0 3 with tmr := ⟨true, 500, 490, .pulseStart⟩ }
     s.tmr.run = true ∧ s.tmr.next = .pulseStart) := by decide

/-- The last step forward and the last in reverse, in each mode. -/
theorem witness_PulseEndCompletesTheMove :
    ∀ m ∈ [ModeReg.normal, .fromTable, .raster],
      (let s := moving m .forward 2 3
       s.tmr.run = true ∧ s.tmr.next = .pulseEnd ∧ s.mc.mode = m ∧ s.mc.direction = .forward ∧
        s.mc.stepIndex + 1 = s.mc.totalSteps) ∧
      (let s := moving m .reverse 0 3
       s.tmr.run = true ∧ s.tmr.next = .pulseEnd ∧ s.mc.mode = m ∧ s.mc.direction = .reverse ∧ s.mc.stepIndex = 0) := by
  decide

/-- Both directions, complete and going on. -/
theorem witness_PulseEndNormalOnlyCounts :
    (let s := moving .normal .forward 1 3
     s.tmr.run = true ∧ s.tmr.next = .pulseEnd ∧ s.mc.mode = .normal ∧ GoesOnTo s.mc 2) ∧
    GoesOnTo (moving .normal .reverse 1 3).mc 0 ∧ CompletesAt (moving .normal .forward 2 3).mc ∧
    CompletesAt (moving .normal .reverse 0 3).mc := by decide

/-- The last entry of the table; one past it; an entry that is not above the pulse width. -/
theorem witness_PulseEndFromTableReprograms :
    (let s := moving .fromTable .forward 6 9
     s.tmr.run = true ∧ s.tmr.next = .pulseEnd ∧ s.mc.mode = .fromTable ∧ GoesOnTo s.mc 7 ∧
      s.cfg.table[(7 : U16).toNat]? = some 183 ∧ s.cfg.pulseWidth < 183) ∧
    (let s := moving .fromTable .forward 7 9
     GoesOnTo s.mc 8 ∧ s.cfg.table.length ≤ (8 : U16).toNat) ∧
    (let s := { moving .fromTable .reverse 2 3 with cfg := { fixture with table := [500, 10, 9] } }
     GoesOnTo s.mc 1 ∧ s.cfg.table[(1 : U16).toNat]? = some 10 ∧ (10 : U16) ≤ s.cfg.pulseWidth) ∧
    CompletesAt (moving .fromTable .reverse 0 3).mc := by decide

/-- A written element; the last of the buffer, which nothing has written; one past it. -/
theorem witness_PulseEndRasterRewritesTheDuty :
    (let s := moving .raster .reverse 1 3
     s.tmr.run = true ∧ s.tmr.next = .pulseEnd ∧ s.mc.mode = .raster ∧ GoesOnTo s.mc 0 ∧
      s.mc.scanlineOffset.toNat + (0 : U16).toNat < s.cfg.scanCap.toNat ∧ s.scan.read 0 = some 10) ∧
    (let s := moving .raster .forward 1022 1025
     GoesOnTo s.mc 1023 ∧ s.mc.scanlineOffset.toNat + (1023 : U16).toNat < s.cfg.scanCap.toNat ∧
      s.scan.read 1023 = none) ∧
    (let s := moving .raster .forward 1023 1025
     GoesOnTo s.mc 1024 ∧ s.cfg.scanCap.toNat ≤ s.mc.scanlineOffset.toNat + (1024 : U16).toNat) ∧
    CompletesAt (moving .raster .forward 2 3).mc := by decide

theorem witness_ReservedModeFaults :
    (let s := moving .reserved .forward 1 3
     s.tmr.run = true ∧ s.tmr.next = .pulseEnd ∧ s.mc.mode = .reserved ∧ GoesOnTo s.mc 2) ∧
    GoesOnTo (moving .reserved .reverse 1 3).mc 0 := by decide

theorem witness_OnlyEnabledEventsOccur :
    idle.tmr.run = false ∧ (moving .normal .forward 0 3).tmr.next = .pulseEnd ∧
    ({ moving .normal .forward 0 3 with tmr := ⟨true, 500, 490, .pulseStart⟩ } : State).tmr.next = .pulseStart := by decide

theorem witness_EventsKeepTheirSideOfTheSingleWriterRule :
    stepAs .timer (moving .normal .forward 2 3) = .next (completed (moving .normal .forward 2 3)) := rfl

/-- FOREGROUND in a wait, and FOREGROUND reading a message, during a move. -/
theorem witness_ForegroundOnlyReadsDuringAMove :
    (let s := { moving .normal .forward 0 3 with agenda := [.wait] }
     s.running = true ∧ stepAs .foreground s = .next s) ∧
    (let s := { moving .normal .forward 0 3 with rx := [0x23] }
     s.running = true ∧
      stepAs .foreground s = .next { s with rx := [], ps := { s.ps with state := .awaitSelector } }) :=
  ⟨⟨rfl, rfl⟩, rfl, rfl⟩

/-- The faults in their order, and a delay one above the pulse width. -/
theorem witness_ArmMoveStartsTheMove :
    (moving .normal .forward 0 3).running = true ∧ (idle.running = false ∧ (0 : U16) = 0) ∧
    (idle.running = false ∧ (1 : U16) ≠ 0 ∧ 10 ≤ idle.cfg.pulseWidth) ∧
    (idle.running = false ∧ (1 : U16) ≠ 0 ∧ idle.cfg.pulseWidth < 11) := by decide

theorem witness_WaitDoneHoldsDuringAMove :
    idle.running = false ∧ (moving .normal .forward 0 3).running = true ∧
    (let s := { moving .normal .forward 0 3 with agenda := [.wait] }
     s.agenda = .wait :: [] ∧ s.running = true) ∧
    (let s := { idle with agenda := [.wait, .laserOff] }
     s.agenda = .wait :: [.laserOff] ∧ s.running = false) ∧
    (let s := { idle with agenda := [.wait] }
     s.agenda = .wait :: [] ∧ s.running = false ∧ s.job.phase = .none) := by decide

/-- The shortest and the longest move. -/
theorem witness_NormalMoveEmitsItsPulses :
    idle.running = false ∧ idle.stepOut = false ∧ idle.cfg.firstEvent = .pulseStart ∧ (1 : U16) ≠ 0 ∧
    (65535 : U16) ≠ 0 ∧ idle.cfg.pulseWidth < 11 := by decide

/-- One step, and the whole table in reverse. -/
theorem witness_TableMoveEmitsTheTable :
    idle.cfg.Valid ∧ idle.running = false ∧ idle.cfg.firstEvent = .pulseStart ∧
    ((1 : U16) ≠ 0 ∧ (1 : U16).toNat ≤ idle.cfg.table.length ∧
      idle.cfg.table[(startIndex .forward 1).toNat]? = some 1000) ∧
    ((8 : U16) ≠ 0 ∧ (8 : U16).toNat ≤ idle.cfg.table.length ∧
      idle.cfg.table[(startIndex .reverse 8).toNat]? = some 183) :=
  ⟨fixture_valid, by decide⟩

theorem witness_LaserOperations : idle.running = false ∧ (moving .raster .forward 0 3).running = true := by decide

/-- The whole buffer in reverse from an element never written; a written one. -/
theorem witness_RasterMoveBeginsWithTheFirstPixel :
    (loaded.running = false ∧ (1024 : U16) ≠ 0 ∧ (0 : U16).toNat + (1024 : U16).toNat ≤ loaded.cfg.scanCap.toNat ∧
      loaded.cfg.pulseWidth < 11 ∧ 1023 = (0 : U16).toNat + ((1024 : U16).toNat - 1) ∧ loaded.scan.read 1023 = none) ∧
    ((1 : U16) ≠ 0 ∧ (2 : U16).toNat + (1 : U16).toNat ≤ loaded.cfg.scanCap.toNat ∧ 2 = (2 : U16).toNat + 0 ∧
      loaded.scan.read 2 = some 30) := by decide

theorem witness_RasterMoveDrawsTheScanline :
    loaded.running = false ∧ loaded.cfg.firstEvent = .pulseStart ∧ (3 : U16) ≠ 0 ∧ loaded.cfg.pulseWidth < 500 ∧
    (0 : U16).toNat + (3 : U16).toNat ≤ loaded.cfg.scanCap.toNat ∧ ([10, 20, 30] : List Byte).length = (3 : U16).toNat ∧
    (∀ j, j < (3 : U16).toNat → loaded.scan.read ((0 : U16).toNat + j) = ([10, 20, 30] : List Byte)[j]?) := by decide

theorem witness_RampScanFindsTheLargestPrefix : idle.cfg.table.length ≤ 65534 := by decide

theorem witness_FlatMoveArmsAndWaits :
    (idle.running = false ∧ (1 : U16) ≠ 0 ∧ idle.cfg.pulseWidth < 11) ∧ (moving .normal .forward 0 3).running = true ∧
    (idle.running = false ∧ (0 : U16) = 0) ∧ (idle.running = false ∧ (1 : U16) ≠ 0 ∧ 10 ≤ idle.cfg.pulseWidth) := by decide

theorem witness_AccelerateArmsTheRamp :
    idle.running = false ∧ idle.cfg.table.length ≤ 65534 ∧ idle.cfg.table[0]? = some 1000 ∧ idle.cfg.pulseWidth < 1000 ∧
    5 = BitVec.ofNat 16 (rampLength idle.cfg.table 236) := by decide

/-- `k` one below the pad, and equal to it. -/
theorem witness_DecelerateArmsItsFirstMove :
    (idle.running = false ∧ idle.cfg.table.length ≤ 65534 ∧ 5 = BitVec.ofNat 16 (rampLength idle.cfg.table 236)) ∧
    ((5 : U16) < 6 ∧ idle.cfg.pulseWidth < 236) ∧
    ((5 : U16) ≤ 5 ∧ idle.cfg.table[(5 : U16).toNat]? = some 213 ∧ idle.cfg.pulseWidth < 213) := by decide

/-- A rate slower than the whole table, and one that only its last entry does not reach. -/
theorem witness_AccelerateEmitsRampThenCruise :
    idle.cfg.Valid ∧ idle.cfg.firstEvent = .pulseStart ∧ idle.running = false ∧
    (idle.cfg.pulseWidth < 1001 ∧ rampLength idle.cfg.table 1001 < idle.cfg.table.length) ∧
    (idle.cfg.pulseWidth < 184 ∧ rampLength idle.cfg.table 184 < idle.cfg.table.length) :=
  ⟨fixture_valid, by decide⟩

theorem witness_DecelerateEmitsCruiseThenRamp :
    idle.cfg.Valid ∧ idle.cfg.firstEvent = .pulseStart ∧ idle.running = false ∧ idle.cfg.pulseWidth < 236 ∧
    rampLength idle.cfg.table 236 < idle.cfg.table.length :=
  ⟨fixture_valid, by decide⟩

/-- A pad as long as the table, and one step more. -/
theorem witness_ExhaustedTableFaults :
    idle.cfg.Valid ∧ (idle.running = false ∧ rampLength idle.cfg.table 183 = idle.cfg.table.length ∧
      idle.cfg.firstEvent = .pulseStart ∧ (8 : U16).toNat = idle.cfg.table.length) ∧
    (8 : U16) ≤ 8 ∧ ((8 : U16) < 9 ∧ idle.cfg.pulseWidth < 183) :=
  ⟨fixture_valid, by decide⟩

theorem witness_ReadLineBeginsAtColumnZero : (inJob .reqLine).job.phase ≠ .none ∧ idle.job.phase = .none := by decide

theorem witness_ReadLineConsumesExactlyTheLine :
    (let s := { inJob .readLine with job := ⟨.readLine, 0, 0, 0⟩, rx := [0x23, 0x21, 0x58, 0x23] }
     s.agenda = [] ∧ s.job.phase = .readLine ∧ s.job.col = 0 ∧ s.running = false ∧ s.jp.outWidth ≤ s.cfg.scanCap ∧
      s.rx = [0x23, 0x21, 0x58] ++ [0x23] ∧ ([0x23, 0x21, 0x58] : List Byte).length = s.jp.outWidth.toNat) := by decide

theorem witness_AdvanceSecondaryMovesByThePitch :
    idle.jp.pitch = 0 ∧
    (let s := inJob .decelRamp
     s.jp.pitch ≠ 0 ∧ s.running = false ∧ s.cfg.pulseWidth < s.jp.velocity) := by decide

/-- Each row of the phase table, the ramp with its flat (one step short of the pad) and without (the pad reached), on an
even and on an odd line. -/
theorem witness_SequencerCallsTheOperations :
    ((inJob .reqLine).job.phase = .reqLine ∧ (inJob .reqLine).agenda = [] ∧ (inJob .reqLine).job.line.toNat % 2 = 0 ∧
      ({ inJob .raster with job := ⟨.raster, 1, 3, 5⟩ } : State).job.line.toNat % 2 = 1) ∧
    ((inJob .readLine).agenda = [] ∧ (inJob .readLine).jp.outWidth ≤ (inJob .readLine).job.col ∧
      (inJob .readLine).running = false) ∧
    (let s := { inJob .accelRamp with agenda := [.wait, .cruise 236 6] }
     s.job.phase = .accelRamp ∧ s.agenda = [.wait, .cruise 236 6] ∧ s.running = false ∧ s.job.k < 6 ∧
      s.cfg.pulseWidth < 236) ∧
    (let s := { inJob .accelRamp with agenda := [.wait, .cruise 236 5] }
     s.job.phase = .accelRamp ∧ s.agenda = [.wait, .cruise 236 5] ∧ s.running = false ∧ 5 ≤ s.job.k) ∧
    (let s := { inJob .accelFlat with agenda := [.wait] }
     s.job.phase = .accelFlat ∧ s.agenda = [.wait] ∧ s.running = false) ∧
    (let s := { inJob .raster with agenda := [.wait, .laserOff] }
     s.job.phase = .raster ∧ s.agenda = [.wait, .laserOff] ∧ s.running = false) ∧
    (let s := { inJob .decelFlat with agenda := [.wait, .decelRamp] }
     s.job.phase = .decelFlat ∧ s.agenda = [.wait, .decelRamp] ∧ s.running = false ∧ s.cfg.table.length ≤ 65534 ∧
      s.cfg.table[s.job.k.toNat]? = some 213 ∧ s.cfg.pulseWidth < 213) ∧
    (let s := { inJob .decelRamp with agenda := [.wait] }
     s.job.phase = .decelRamp ∧ s.agenda = [.wait] ∧ s.running = false ∧ s.jp.pitch ≠ 0) := by decide

/-- The last line and one before it, after the pitch move and, with pitch zero, after the ramp. -/
theorem witness_NextLineOrEndOfJob :
    (let s := { inJob .pitch with agenda := [.wait] }
     s.agenda = [.wait] ∧ s.running = false ∧ s.job.phase = .pitch ∧ s.job.line + 1 ≠ s.jp.imageHeight) ∧
    (let s :=
      { inJob .decelRamp with
        agenda := [.wait], job := ⟨.decelRamp, 1, 3, 5⟩, jp := { (inJob .decelRamp).jp with pitch := 0 } }
     s.agenda = [.wait] ∧ s.running = false ∧ (s.job.phase = .decelRamp ∧ s.jp.pitch = 0) ∧
      s.job.line + 1 = s.jp.imageHeight) := by decide

/-- A first line forward, and the last line in reverse. -/
theorem witness_ScanlineIsDrawn :
    fixture.Valid ∧
    (let s := { inJob .readLine with job := ⟨.readLine, 0, 3, 0⟩ }
     s.cfg = fixture ∧ EngineInv s ∧ s.cfg.firstEvent = .pulseStart ∧ s.running = false ∧ s.pwm.connected = false ∧ s.agenda = [] ∧
      s.job.phase = .readLine ∧ s.job.col = s.jp.outWidth ∧ s.jp.outWidth ≠ 0 ∧ s.jp.outWidth ≤ s.cfg.scanCap ∧
      s.cfg.pulseWidth < s.jp.velocity ∧ rampLength s.cfg.table s.jp.velocity < s.cfg.table.length ∧
      ([10, 20, 30] : List Byte).length = s.jp.outWidth.toNat ∧
      (∀ j, j < 3 → s.scan.read j = ([10, 20, 30] : List Byte)[j]?) ∧ .forward = lineDir s.cfg.line0Dir s.job.line) ∧
    .reverse = lineDir fixture.line0Dir 1 :=
  ⟨fixture_valid, by decide⟩

theorem witness_ResetLeavesTheBlockIdle : idle = State.resetWith fixture := rfl

theorem witness_OnlySetCommandsWriteParameters :
    (exec .ack idle = .next { idle with tx := [0x23, 0x59] } ∧ setParts .ack = none) ∧
    (let s := { parser .readArg [0x3B] with ps := ⟨.readArg, .s, 4, 1⟩, turns := [.foreground] }
     see (fun t => (t.jp.pitch, s.jp.pitch)) (step s) = some (4, 0)) := ⟨⟨rfl, rfl⟩, by decide⟩

theorem witness_NoStepChangesTheTable :
    step { idle with turns := [.host 7] } = .next { idle with rx := [7] } := rfl

theorem witness_PulsesAreRecordedAtPulseStartOnly :
    (let s := { moving .normal .forward 0 3 with tmr := ⟨true, 500, 490, .pulseStart⟩ }
     exec .pulseStart s = .next (pulseStartEvent s) ∧
      stepAs .timer s = .next (pulseStartEvent s)) ∧
    exec .ack idle = .next { idle with tx := [0x23, 0x59] } := ⟨⟨rfl, rfl⟩, rfl⟩

/-- The bytes of a start command arrive inside a line. -/
theorem witness_JobsInterpretNoCommand :
    (let s := { inJob .readLine with job := ⟨.readLine, 0, 0, 0⟩, rx := [0x23, 0x21] }
     s.job.phase ≠ .none ∧
      see (fun t => (t.rx, t.tx, t.job.col)) (stepAs .foreground s) = some ([0x21], [], 1)) := by decide

theorem witness_EveryInstructionKeepsEngineInv :
    EngineInv (moving .raster .reverse 2 3) ∧
    see (·.pwm.duty) (exec .pulseEndRaster (moving .raster .reverse 2 3)) = some 20 := by decide

theorem witness_EveryStepKeepsEngineInv :
    EngineInv { moving .fromTable .forward 0 3 with turns := [.timer] } ∧
    see (·.tmr.cmpStart) (step { moving .fromTable .forward 0 3 with turns := [.timer] }) = some 414 := by decide

theorem witness_InvariantsHoldAtReset : fixture.Valid := fixture_valid

/-- A session in the middle of its first ramp, with no turn prescribed. -/
def rampSession : State :=
  { inJob .accelRamp with
    agenda := [.wait, .cruise 236 8]
    mc := ⟨.fromTable, .forward, 2, 6, 0⟩, tmr := ⟨true, 318, 308, .pulseEnd⟩, running := true, stepOut := true }

theorem witness_EnabledTimerEventsOccur :
    (EngineInv rampSession ∧ rampSession.tmr.run = true ∧ rampSession.turns = []) ∧
    (SessionInv rampSession ∧ rampSession.running = true) := by
  refine ⟨?_, ⟨fixture_valid, ?_, ?_, ?_, ?_, ?_, ?_⟩, ?_⟩ <;> decide

/-- A session that is about to draw a line. -/
def drawingNext : State := { inJob .readLine with turns := [.foreground] }

theorem witness_EveryStepKeepsSessionInv :
    SessionInv drawingNext ∧ see (·.job.phase) (step drawingNext) = some .accelRamp := by
  refine ⟨⟨fixture_valid, ?_, ?_, ?_, ?_, ?_, ?_⟩, ?_⟩ <;> decide

/-- A session whose velocity the whole table reaches, at its last entry. -/
def pastTable : State :=
  { inJob .accelRamp with
    jp := { (inJob .accelRamp).jp with velocity := 183 }
    job := ⟨.accelRamp, 0, 3, 8⟩, agenda := [.wait, .cruise 183 8], turns := [.timer]
    mc := ⟨.fromTable, .forward, 7, 9, 0⟩, tmr := ⟨true, 183, 173, .pulseEnd⟩, running := true, stepOut := true }

/-- A session that is about to start a job with backlash. -/
def backlashNext : State :=
  { inJob .none with
    jp := { (inJob .none).jp with backlash := 1 }, rx := [0x21], turns := [.foreground] }

theorem witness_SessionsFaultOnlyPastTheTable :
    (SessionInv pastTable ∧ seeTableFault (fun s => (s.stepOut, s.mc.stepIndex)) (step pastTable) = some (8, false, 8)) ∧
    (SessionInv backlashNext ∧ refusalOf (step backlashNext) = some .backlash) := by
  refine ⟨⟨⟨fixture_valid, ?_, ?_, ?_, ?_, ?_, ?_⟩, ?_⟩, ⟨fixture_valid, ?_, ?_, ?_, ?_, ?_, ?_⟩, ?_⟩ <;> decide

end Sys2Proof.Tests
end

/-! SUPPORT. What one turn of FOREGROUND in a wait does (R133, R15), the invariants at reset (R53), and the statements O31
and O55, which rest on them. -/

namespace Sys2Proof.Machine

/-! ### A chosen turn -/

/-- A step in which an agent is given the turn is that agent's turn: the prescribed turn is used up again. -/
theorem stepAs_eq_takeTurn (t : Turn) (s : State) : stepAs t s = takeTurn t s := rfl

/-- FOREGROUND with an operation pending goes on with it, but for the reading of a line, which goes byte by byte. -/
theorem foregroundStep_cons {t : Task} {rest : List Task} {s : State} (ha : s.agenda = t :: rest) (ht : t ≠ .lineRead) :
    foregroundStep s = resume (t :: rest) s := by
  unfold foregroundStep
  rw [ha]
  exact if_neg ht

/-- Outside a job no phase is left. -/
theorem leavePhase_of_no_job {s : State} (hp : s.job.phase = .none) : leavePhase s = .next s := by
  unfold leavePhase
  rw [hp]

/-! ### `wait_done` -/

theorem exec_waitDone_idle {s : State} (hr : s.running = false) : exec .waitDone s = .next s := by
  change execWaitDone s = .next s
  simp [execWaitDone, hr]

theorem exec_waitDone_running {s : State} (hr : s.running = true) :
    exec .waitDone s = .next { s with agenda := .wait :: s.agenda } := by
  change execWaitDone s = .next (push [.wait] s)
  simp [execWaitDone, hr]

section PendingWait

variable {rest : List Task} {s : State}

/-- FOREGROUND's turn with a wait pending is the resumption of that wait. -/
theorem stepAs_foreground_wait (ha : s.agenda = .wait :: rest) :
    stepAs .foreground s = resume (.wait :: rest) s :=
  (stepAs_eq_takeTurn .foreground s).trans (foregroundStep_cons ha (by decide))

theorem stepAs_foreground_wait_running (ha : s.agenda = .wait :: rest) (hr : s.running = true) :
    stepAs .foreground s = .next s :=
  (stepAs_foreground_wait ha).trans (resume_wait_running ha hr)

theorem stepAs_foreground_wait_idle (ha : s.agenda = .wait :: rest) (hr : s.running = false) :
    stepAs .foreground s = resume rest { s with agenda := rest } :=
  (stepAs_foreground_wait ha).trans (resume_wait_idle hr)

end PendingWait

/-- Settles O31: a wait that is called, and a wait that is pending, each with the engine idle and during a move. The last
clause is the idle pending wait with an empty rest, where FOREGROUND goes on to leave a phase and there is none to leave. -/
theorem waitDoneHoldsDuringAMove : Obligations.WaitDoneHoldsDuringAMove := by
  intro s
  refine ⟨exec_waitDone_idle, exec_waitDone_running, fun rest ha =>
    ⟨stepAs_foreground_wait_running ha, stepAs_foreground_wait_idle ha, ?_⟩⟩
  rintro hr rfl hp
  calc stepAs .foreground s
      = resume [] { s with agenda := [] } := stepAs_foreground_wait_idle ha hr
    _ = leavePhase { s with agenda := [] } := resume_nil _
    _ = .next { s with agenda := [] } := leavePhase_of_no_job hp

/-! ### Reset -/

/-- At reset no move is active and SCAN holds nothing (R53), so what the invariants say of a move, of an argument being
read and of the written elements asks for nothing; the widths are zero and the step output is low. -/
theorem resetWith_engineInv (c : Params) : EngineInv (State.resetWith c) := by
  have timer_stopped : (State.resetWith c).tmr.run = (State.resetWith c).running := rfl
  have output_off : (State.resetWith c).pwm.run = (State.resetWith c).pwm.connected := rfl
  have widths_fit : (0 : U16) ≤ c.scanCap := BitVec.le_def.mpr (Nat.zero_le _)
  exact ⟨timer_stopped, output_off, ⟨reset_scan_wf c, nofun⟩, ⟨widths_fit, widths_fit⟩, nofun, nofun, fun _ =>
    ⟨nofun, nofun⟩⟩

/-- At reset no job runs and no operation is pending (R53, R237), so beside its parameters a session needs only the engine's
invariants. -/
theorem resetWith_sessionInv {c : Params} (hc : c.Valid) : SessionInv (State.resetWith c) := by
  have no_job : (State.resetWith c).job.phase = .none := rfl
  have nothing_pending :
      agendaFits (State.resetWith c).jp (State.resetWith c).job.phase (State.resetWith c).agenda = true := rfl
  exact ⟨hc, resetWith_engineInv c, nothing_pending, fun in_job => absurd no_job in_job, nofun, nofun, nofun⟩

/-- Settles O55: the engine's invariants at reset, and a session's when the parameters are valid. -/
theorem invariantsHoldAtReset : Obligations.InvariantsHoldAtReset :=
  fun c => ⟨resetWith_engineInv c, resetWith_sessionInv⟩

end Sys2Proof.Machine

/-! SUPPORT. What a step can do, said once. Everything but the two interrupt events is a sequence of single writes, each
with the guard under which the model makes it (`Write`, `Writes`); an event is one of three transitions (`EventEffect`). The
statements of this part (O17 to O19, O28, O29, O50 to O54, O56, O57) are each a property of one write and of one event. -/

namespace Sys2Proof.Machine

/-! ### Single writes -/

/-- A partial argument is within its digits (R42), as `EngineInv` says it. -/
def ArgFits (p : Parser) : Prop := p.state = .readArg → p.nd ≤ 5 ∧ p.acc < 10 ^ p.nd

/-- Who writes: an operation of FOREGROUND, which interprets no byte; a message or the parser's own steps, which also write
the parser and begin jobs; or a set command, which also writes a job parameter (R40). -/
inductive Scope where
  | operation
  | message
  | setting

/-- One write of FOREGROUND, of the HOST or of a Timeout, with its guard. -/
inductive Write (k : Scope) (s : State) : State → Prop
  | send (bytes : List Byte) : Write k s (send bytes s)
  | receive (bytes : List Byte) : Write k s { s with rx := bytes }
  | agenda (ts : List Task) : Write k s { s with agenda := ts }
  | fresh (n : Nat) : Write k s { s with fresh := n }
  | sequencer (j : Sequencer) (keeps_no_job : s.job.phase = .none → j.phase = .none) : Write k s { s with job := j }
  | endJob : Write k s (endJob s)
  | store (i : Nat) (b : Byte) (idle : s.running = false) (inside : i < s.cfg.scanCap.toNat) :
      Write k s { s with scan := s.scan.write i b }
  | latches (a : Axis) (p : PhysDir) (idle : s.running = false) : Write k s { s with axis := a, physDir := p }
  | duty (v : Byte) (idle : s.running = false) : Write k s { s with pwm := { s.pwm with duty := v } }
  | output (v : Bool) (idle : s.running = false) : Write k s (setOutput v s)
  | arm (mode : MoveMode) (dir : Direction) (total delay offset : U16) (idle : s.running = false) (steps : total ≠ 0)
      (long : s.cfg.pulseWidth < delay) : Write k s (launch (populate mode dir total delay offset s))
  | parser (p : Parser) (interprets : k ≠ .operation) (fits : ArgFits s.ps → ArgFits p) : Write k s { s with ps := p }
  | beginJob (interprets : k ≠ .operation) : Write k s { s with job := { s.job with line := 0, phase := .reqLine } }
  | parameter (c : Selector) (v : U16) (sets : k = .setting) (inRange : v.toNat ≤ setLimit s.cfg c) :
      Write k s { s with jp := setRegister v s.jp c }

/-- A sequence of writes. -/
abbrev Writes (k : Scope) : State → State → Prop := Relation.ReflTransGen (Write k)

theorem Write.single {k : Scope} {s t : State} (h : Write k s t) : Writes k s t := Relation.ReflTransGen.single h

theorem Scope.message_interprets : Scope.message ≠ .operation := nofun

theorem Scope.setting_interprets : Scope.setting ≠ .operation := nofun

theorem Scope.operation_ne_setting : Scope.operation ≠ .setting := nofun

theorem Scope.message_ne_setting : Scope.message ≠ .setting := nofun

/-- A wider scope may write what a narrower one may. -/
theorem Write.mono {k k' : Scope} {s t : State} (interprets : k ≠ .operation → k' ≠ .operation)
    (sets : k = .setting → k' = .setting) (h : Write k s t) : Write k' s t := by
  cases h with
  | send bytes => exact .send bytes
  | receive bytes => exact .receive bytes
  | agenda ts => exact .agenda ts
  | fresh n => exact .fresh n
  | sequencer j h => exact .sequencer j h
  | endJob => exact .endJob
  | store i b h hi => exact .store i b h hi
  | latches a p h => exact .latches a p h
  | duty v h => exact .duty v h
  | output v h => exact .output v h
  | arm mode dir total delay offset h ht hd => exact .arm mode dir total delay offset h ht hd
  | parser p h hp => exact .parser p (interprets h) hp
  | beginJob h => exact .beginJob (interprets h)
  | parameter c v h hv => exact .parameter c v (sets h) hv

theorem Writes.of_operation {k : Scope} {s t : State} (h : Writes .operation s t) : Writes k s t :=
  Relation.ReflTransGen.mono (fun _ _ => Write.mono (absurd rfl) fun h => absurd h Scope.operation_ne_setting) _ _ h

theorem Writes.of_message {s t : State} (h : Writes .message s t) : Writes .setting s t :=
  Relation.ReflTransGen.mono (fun _ _ => Write.mono (fun _ => Scope.setting_interprets) fun _ => rfl) _ _ h

/-! ### What answers are within a scope -/

/-- Whenever `r` is a next state, it is `s` after writes of this scope. -/
structure Within (k : Scope) (s : State) (r : Result) : Prop where
  writes : ∀ t, r = .next t → Writes k s t

section Rules

variable {k : Scope} {s u : State}

theorem within_next (h : Writes k s u) : Within k s (.next u) where
  writes := by
    rintro t ⟨⟩
    exact h

theorem within_refused (e : Refusal) : Within k s (.refused e) where
  writes _ h := by cases h

theorem within_andThen {r : Result} {f : State → Result} (hr : Within k s r) (hf : ∀ u, Within k u (f u)) :
    Within k s (andThen r f) where
  writes t h := by
    obtain ⟨u, hu, ht⟩ := andThen_eq_next.mp h
    exact (hr.writes u hu).trans ((hf u).writes t ht)

theorem within_after {r : Result} (h : Write k s u) (hr : Within k u r) : Within k s r where
  writes t ht := (hr.writes t ht).head h

theorem Within.of_operation {r : Result} (h : Within .operation s r) : Within k s r where
  writes t ht := (h.writes t ht).of_operation

/-! The shared operations. -/

theorem writes_push (ts : List Task) (s : State) : Writes k s (push ts s) := (Write.agenda _).single

theorem writes_reply (i : Instr) (s : State) : Writes k s (reply i s) := (Write.send _).single

/-- A phase is moved in a job only, so outside one there is still no job. -/
theorem writes_markPhase (p : JobPhase) (s : State) : Writes k s (markPhase p s) := by
  unfold markPhase
  split
  · exact .refl
  · next in_job => exact (Write.sequencer { s.job with phase := p } fun h => absurd h in_job).single

theorem write_scanRamp (rate : U16) (s : State) : Write k s (scanRamp rate s) :=
  .sequencer { s.job with k := BitVec.ofNat 16 (rampLength s.cfg.table rate) } id

theorem scanTouch_eq (i : Nat) (s : State) : scanTouch i s = { s with fresh := (scanTouch i s).fresh } := by
  unfold scanTouch
  split <;> rfl

theorem write_scanTouch (i : Nat) (s : State) : Write k s (scanTouch i s) := by
  rw [scanTouch_eq]
  exact .fresh _

theorem within_readScan {i : Nat} {f : Byte → State → Result} (hf : ∀ b u, Within k u (f b u)) :
    Within k s (readScan i f s) where
  writes t h := (within_after (write_scanTouch i s) (hf _ _)).writes t (readScan_next.mp h).2

theorem within_readTable {i : Nat} {f : U16 → State → Result} (hf : ∀ d, Within k s (f d s)) :
    Within k s (readTable i f s) where
  writes t h := by
    obtain ⟨d, -, ht⟩ := readTable_next.mp h
    exact (hf d).writes t ht

theorem within_writeScan (i : Nat) (b : Byte) : Within k s (writeScan i b s) where
  writes t h := by
    obtain ⟨idle, inside, rfl⟩ := writeScan_next.mp h
    exact (Write.store i b idle inside).single

theorem within_setLatches (a : Axis) (p : PhysDir) : Within k s (setLatches a p s) where
  writes t h := by
    obtain ⟨idle, rfl⟩ := setLatches_next.mp h
    exact (Write.latches a p idle).single

theorem within_preload (v : Byte) : Within k s (preload v s) where
  writes t h := by
    obtain ⟨idle, rfl⟩ := preload_next.mp h
    exact (Write.duty v idle).single

theorem within_writeOutput (v : Bool) : Within k s (writeOutput v s) where
  writes t h := by
    obtain ⟨idle, rfl⟩ := writeOutput_next.mp h
    exact (Write.output v idle).single

theorem within_armMove (mode : MoveMode) (dir : Direction) (total delay offset : U16) :
    Within k s (armMove mode dir total delay offset s) where
  writes t h := by
    obtain ⟨idle, steps, long, rfl⟩ := armMove_next.mp h
    exact (Write.arm mode dir total delay offset idle steps long).single

theorem within_moveAndWait (mode : MoveMode) (dir : Direction) (total delay offset : U16) :
    Within k s (moveAndWait mode dir total delay offset s) :=
  within_andThen (within_armMove ..) fun u => within_next (writes_push _ u)

theorem within_flatMove (n rate : U16) : Within k s (flatMove n rate s) := within_moveAndWait ..

/-- Each stored byte is a write to SCAN and one to `job.col`. -/
theorem within_storeLine (bytes : List Byte) (s : State) : Within k s (storeLine bytes s) := by
  induction bytes generalizing s with
  | nil => exact within_next .refl
  | cons b bs ih =>
    rw [storeLine_cons]
    exact within_andThen (within_writeScan ..) fun u =>
      within_after (.sequencer { u.job with col := u.job.col + 1 } id) (ih _)

/-! ### The operations of FOREGROUND -/

theorem within_waitDone : Within k s (execWaitDone s) := by
  unfold execWaitDone
  split
  · exact within_next (writes_push ..)
  · exact within_next .refl

/-- After the move is armed: its phase, then its tasks. -/
theorem within_armed (p : JobPhase) (ts : List Task) (s : State) : Within k s (.next (push ts (markPhase p s))) :=
  within_next ((writes_markPhase p s).trans (writes_push ts _))

theorem within_rasterMove (w offset : U16) (dir : Direction) (rate : U16) :
    Within k s (execRasterMove w offset dir rate s) :=
  within_readScan fun first _ =>
    within_andThen (within_preload first) fun _ =>
      within_andThen (within_writeOutput true) fun _ =>
        within_andThen (within_armMove ..) (within_armed _ _)

theorem within_accelerate (rate padSteps : U16) : Within k s (execAccelerate rate padSteps s) :=
  within_after (write_scanRamp rate s)
    (within_readTable fun _ => within_andThen (within_armMove ..) (within_armed _ _))

theorem within_cruise (rate padSteps : U16) : Within k s (cruise rate padSteps s) := by
  unfold cruise
  split
  · exact within_andThen (within_flatMove ..) fun u => within_next (writes_markPhase _ u)
  · exact within_next .refl

theorem within_decelRamp : Within k s (decelRamp s) :=
  within_readTable fun _ => within_andThen (within_moveAndWait ..) fun u => within_next (writes_markPhase _ u)

theorem within_decelerate (rate padSteps : U16) : Within k s (execDecelerate rate padSteps s) := by
  unfold execDecelerate
  split
  · exact within_after (write_scanRamp rate s) (within_andThen (within_armMove ..) (within_armed _ _))
  · exact within_after (write_scanRamp rate s) within_decelRamp

theorem within_readLine : Within k s (execReadLine s) := by
  unfold execReadLine
  split
  · exact within_after (.sequencer { s.job with col := 0 } id) (within_next (writes_push ..))
  · next in_job =>
    exact within_next (Write.sequencer { s.job with col := 0, phase := .readLine } fun h => absurd h in_job).single

theorem within_advanceSecondary : Within k s (execAdvanceSecondary s) := by
  unfold execAdvanceSecondary
  split
  · exact within_next .refl
  · exact within_andThen (within_setLatches ..) fun _ =>
      within_andThen (within_flatMove ..) fun u => within_next (writes_markPhase _ u)

/-! ### Messages -/

theorem writes_toSentinel (hk : k ≠ .operation) (s : State) : Writes k s (toSentinel s) :=
  (Write.parser { s.ps with state := .awaitSentinel } hk fun _ => nofun).single

theorem writes_answer (hk : k ≠ .operation) (i : Instr) (s : State) : Writes k s (toSentinel (reply i s)) :=
  (writes_reply i s).trans (writes_toSentinel hk _)

theorem within_beginJob (hk : k ≠ .operation) : Within k s (beginJob s) := by
  rcases beginJob_cases s with ⟨-, h⟩ | ⟨-, -, h⟩ | ⟨-, -, -, h⟩ | ⟨-, -, -, h⟩ <;> rw [h]
  · exact within_next (writes_reply ..)
  · exact within_refused _
  · have line_zero : Writes k s { reply .ack s with job := { s.job with line := 0 } } :=
      (writes_reply .ack s).tail (.sequencer { s.job with line := 0 } id)
    exact within_next (line_zero.tail .endJob)
  · exact within_next ((writes_reply .ack s).tail (.beginJob hk))

theorem within_start (hk : k ≠ .operation) : Within k s (execStart s) :=
  within_andThen (within_beginJob hk) fun u => within_next <| by
    split
    · exact writes_toSentinel hk u
    · exact .refl

/-- A set command writes its parameter within the limit of R195, or none, and answers. -/
theorem writes_setCommand (c : Selector) (a : Arg) (s : State) : Writes .setting s (setCommand c a s) := by
  rcases setCommand_cases c a s with ⟨-, hle, h⟩ | ⟨-, -, h⟩ | ⟨-, h⟩ <;> rw [h]
  · have inRange : (BitVec.ofNat 16 a.acc).toNat ≤ setLimit s.cfg c :=
      (BitVec.toNat_ofNat a.acc 16 ▸ Nat.mod_le _ _).trans hle
    exact (writes_answer Scope.setting_interprets .ack _).head (.parameter c _ rfl inRange)
  · exact writes_answer Scope.setting_interprets .nak s
  · exact writes_answer Scope.setting_interprets .err s

end Rules

theorem exec_setInstr (c : Selector) (a : Arg) (s : State) : exec (setInstr c a) s = .next (setCommand c a s) := by
  cases c <;> rfl

/-! ### The two interrupt events -/

/-- What the dispatch of a pulse-end event leaves (R129 to R131): the same state, new compare registers, or a new duty. -/
inductive Dispatched (s : State) : State → Prop
  | kept : Dispatched s s
  | reprogrammed (d : U16) (long : s.cfg.pulseWidth < d) :
      Dispatched s { s with tmr := { s.tmr with cmpStart := d, cmpEnd := d - s.cfg.pulseWidth } }
  | redrawn (b : Byte) (n : Nat) : Dispatched s { s with pwm := { s.pwm with duty := b }, fresh := n }

/-- What an enabled event does (R124, R125). -/
inductive EventEffect (s : State) : TimerEvent → State → Prop
  | pulseStart (enabled : eventEnabled .pulseStart s = true) : EventEffect s .pulseStart (pulseStartEvent s)
  | completes (enabled : eventEnabled .pulseEnd s = true) (done : moveDone s.mc = true) :
      EventEffect s .pulseEnd (complete (endPulse s))
  | goesOn {u : State} (enabled : eventEnabled .pulseEnd s = true) (going : moveDone s.mc = false)
      (dispatched : Dispatched (endPulse s) u) :
      EventEffect s .pulseEnd { u with tmr := { u.tmr with next := .pulseStart } }

theorem eventEnabled_iff {e : TimerEvent} {s : State} : eventEnabled e s = true ↔ s.tmr.run = true ∧ s.tmr.next = e := by
  simp [eventEnabled]

theorem dispatchNormal_dispatched {s t : State} (h : dispatchNormal s = .next t) : Dispatched s t := by
  cases h
  exact .kept

theorem dispatchFromTable_dispatched {s t : State} (h : dispatchFromTable s = .next t) : Dispatched s t := by
  obtain ⟨d, -, h⟩ := readTable_next.mp h
  obtain ⟨long, rfl⟩ := timerProgram_next.mp h
  exact .reprogrammed d long

theorem dispatchRaster_dispatched {s t : State} (h : dispatchRaster s = .next t) : Dispatched s t := by
  obtain ⟨-, h⟩ := readScan_next.mp h
  cases h
  rw [scanTouch_eq]
  exact .redrawn ..

theorem dispatchReserved_dispatched {s t : State} (h : dispatchReserved s = .next t) : Dispatched s t := nomatch h

theorem pulseStart_effect {s t : State} (h : execPulseStart s = .next t) : t = s ∨ EventEffect s .pulseStart t := by
  unfold execPulseStart at h
  split at h <;> cases h
  · next enabled => exact .inr (.pulseStart enabled)
  · exact .inl rfl

theorem pulseEndIn_effect {mode : ModeReg} {dispatch : State → Result} {s t : State}
    (hd : ∀ {u v}, dispatch u = .next v → Dispatched u v) (h : pulseEndIn mode dispatch s = .next t) :
    t = s ∨ EventEffect s .pulseEnd t := by
  unfold pulseEndIn at h
  split at h
  · next occurs =>
    have enabled := (Bool.and_eq_true _ _ ▸ occurs).1
    rcases pulseEndEvent_next.mp h with ⟨done, rfl⟩ | ⟨going, u, hu, rfl⟩
    · exact .inr (.completes enabled done)
    · exact .inr (.goesOn enabled going (hd hu))
  · cases h
    exact .inl rfl

/-! ### Every instruction -/

/-- Only the seven set commands may write a job parameter. -/
def scopeOf (i : Instr) : Scope := if (setParts i).isSome then .setting else .message

/-- What an instruction can do: writes of its scope, or the effect of an enabled event, its own. -/
theorem exec_effect {i : Instr} {s t : State} (h : exec i s = .next t) :
    Writes (scopeOf i) s t ∨ ∃ e, EventEffect s e t ∧ (e = .pulseStart → i = .pulseStart) := by
  have of_within (hw : Within (scopeOf i) s (exec i s)) :
      Writes (scopeOf i) s t ∨ ∃ e, EventEffect s e t ∧ (e = .pulseStart → i = .pulseStart) := .inl (hw.writes t h)
  have of_pulseEnd : t = s ∨ EventEffect s .pulseEnd t →
      Writes (scopeOf i) s t ∨ ∃ e, EventEffect s e t ∧ (e = .pulseStart → i = .pulseStart) := by
    rintro (rfl | he)
    · exact .inl .refl
    · exact .inr ⟨_, he, nofun⟩
  cases i with
  | handshake => exact of_within (within_next (writes_answer Scope.message_interprets ..))
  | setX a => exact of_within (within_next (writes_setCommand .x a s))
  | setY a => exact of_within (within_next (writes_setCommand .y a s))
  | setP a => exact of_within (within_next (writes_setCommand .p a s))
  | setB a => exact of_within (within_next (writes_setCommand .b a s))
  | setS a => exact of_within (within_next (writes_setCommand .s a s))
  | setR a => exact of_within (within_next (writes_setCommand .r a s))
  | setV a => exact of_within (within_next (writes_setCommand .v a s))
  | start => exact of_within (within_start Scope.message_interprets)
  | unknown sel => exact of_within (within_next (writes_answer Scope.message_interprets ..))
  | payload bytes => exact of_within (within_storeLine bytes s)
  | hsAck | ack | nak | lineReady | err => exact of_within (within_next (writes_reply ..))
  | pulseStart =>
    rcases pulseStart_effect h with rfl | he
    · exact .inl .refl
    · exact .inr ⟨_, he, fun _ => rfl⟩
  | pulseEndNormal => exact of_pulseEnd (pulseEndIn_effect dispatchNormal_dispatched h)
  | pulseEndFromTable => exact of_pulseEnd (pulseEndIn_effect dispatchFromTable_dispatched h)
  | pulseEndRaster => exact of_pulseEnd (pulseEndIn_effect dispatchRaster_dispatched h)
  | armMove mode dir total delay offset => exact of_within (within_armMove mode dir total delay offset)
  | waitDone => exact of_within within_waitDone
  | laserPreload v => exact of_within (within_preload v)
  | laserEnable => exact of_within (within_writeOutput true)
  | laserDisable => exact of_within (within_writeOutput false)
  | rasterMove w offset dir rate => exact of_within (within_rasterMove w offset dir rate)
  | rampScan rate => exact of_within (within_next (write_scanRamp rate s).single)
  | flatMove n rate => exact of_within (within_flatMove n rate)
  | accelerate rate padSteps => exact of_within (within_accelerate rate padSteps)
  | decelerate rate padSteps => exact of_within (within_decelerate rate padSteps)
  | startJob => exact of_within (within_beginJob Scope.message_interprets)
  | readLine => exact of_within within_readLine
  | advanceSecondary => exact of_within within_advanceSecondary

/-! ### FOREGROUND's turn -/

section Foreground

variable {s : State}

theorem writes_nextLine (in_job : s.job.phase ≠ .none) : Writes .operation s (nextLine s) := by
  unfold nextLine
  split
  · have line_up : Write .operation s { s with job := { s.job with line := s.job.line + 1 } } :=
      .sequencer { s.job with line := s.job.line + 1 } id
    exact .tail line_up.single .endJob
  · exact (Write.sequencer { s.job with line := s.job.line + 1, phase := .reqLine } fun h => absurd h in_job).single

/-- What FOREGROUND does when an operation returns is a call of an operation or the next line, never a command. -/
theorem within_leavePhase : Within .operation s (leavePhase s) := by
  have next_line (in_job : s.job.phase ≠ .none) : Within .operation s (.next (nextLine s)) :=
    within_next (writes_nextLine in_job)
  have secondary (in_job : s.job.phase ≠ .none) :
      Within .operation s (if s.jp.pitch = 0 then .next (nextLine s) else exec .advanceSecondary s) := by
    split
    · exact next_line in_job
    · exact within_advanceSecondary
  unfold leavePhase
  cases hp : s.job.phase with
  | none | reqLine | readLine => exact within_next .refl
  | accelRamp | accelFlat => exact within_rasterMove ..
  | raster => exact within_decelerate ..
  | decelFlat | decelRamp => exact secondary (hp ▸ nofun)
  | pitch => exact next_line (hp ▸ nofun)

theorem within_runTask (t : Task) : Within .operation s (runTask t s) := by
  cases t with
  | wait => exact within_waitDone
  | laserOff => exact within_writeOutput false
  | cruise rate padSteps => exact within_cruise rate padSteps
  | decelRamp => exact within_decelRamp
  | lineRead => exact within_next (writes_push ..)

/-- The pending tasks, as many as go without a wait, and then the phase. -/
theorem within_resume (ts : List Task) (s : State) : Within .operation s (resume ts s) := by
  induction ts generalizing s with
  | nil => exact within_leavePhase
  | cons t rest ih =>
    rw [resume_cons]
    refine within_after (.agenda rest) (within_andThen (within_runTask t) fun u => ?_)
    split
    · exact within_next .refl
    · exact ih u

theorem within_readByte : Within .operation s (readByte s) := by
  unfold readByte
  split
  · exact within_next .refl
  · exact within_andThen (within_storeLine _ s) fun u => within_next (Write.receive _).single

theorem within_beginScanline : Within .operation s (beginScanline s) :=
  within_andThen (within_setLatches ..) fun _ => within_accelerate ..

theorem within_lineReadStep (rest : List Task) : Within .operation s (lineReadStep rest s) := by
  unfold lineReadStep
  split
  · exact within_readByte
  · exact within_after (.agenda rest) (within_resume rest _)

/-- In a job FOREGROUND is the sequencer, which interprets no byte (R190, R213). -/
theorem within_sequencerStep (in_job : s.job.phase ≠ .none) : Within .operation s (sequencerStep s) := by
  unfold sequencerStep
  cases hp : s.job.phase with
  | none => exact absurd hp in_job
  | reqLine => exact within_andThen (within_next (writes_reply .lineReady s)) fun _ => within_readLine
  | readLine =>
    dsimp only
    split
    · exact within_readByte
    · exact within_beginScanline
  | accelRamp | accelFlat | raster | decelFlat | decelRamp | pitch => exact within_leavePhase

/-- FOREGROUND is the parser when nothing is pending and no job runs, and otherwise it interprets no byte. -/
theorem foregroundStep_cases (s : State) :
    (s.agenda = [] ∧ s.job.phase = .none ∧ foregroundStep s = rxRead parseByte s) ∨
    Within .operation s (foregroundStep s) := by
  unfold foregroundStep
  split
  · next nothing_pending =>
    by_cases no_job : s.job.phase = .none
    · exact .inl ⟨nothing_pending, no_job, by unfold sequencerStep; rw [no_job]⟩
    · exact .inr (within_sequencerStep no_job)
  · next t rest _ =>
    split
    · exact .inr (within_lineReadStep rest)
    · exact .inr (within_resume _ s)

theorem within_foregroundStep_in_job (in_job : s.job.phase ≠ .none) : Within .operation s (foregroundStep s) := by
  rcases foregroundStep_cases s with ⟨-, no_job, -⟩ | h
  · exact absurd no_job in_job
  · exact h

/-- A byte that is no digit ends the argument and with it the set command (R194). -/
def EndsArgument (b : Byte) (s : State) : Prop := s.ps.state = .readArg ∧ extendsArg s.ps.nd b = false

/-- The argument the parser has read when `b` ends it. -/
def readArgument (b : Byte) (s : State) : Arg := { nd := s.ps.nd, acc := s.ps.acc, term := b }

theorem parseByte_of_endsArgument {b : Byte} (h : EndsArgument b s) :
    parseByte b s = .next (setCommand s.ps.cmd (readArgument b s) s) := by
  obtain ⟨reading, ends⟩ := h
  unfold parseByte
  rw [reading]
  dsimp only
  rw [ends, ← exec_setInstr]
  rfl

theorem within_shortInstr (b : Byte) : Within .message s (exec (shortInstr b) s) := by
  unfold shortInstr
  split
  · exact within_next (writes_answer Scope.message_interprets ..)
  · split
    · exact within_start Scope.message_interprets
    · exact within_next (writes_answer Scope.message_interprets ..)

/-- One more digit keeps the argument within its digits (R96). -/
theorem argFits_digit {b : Byte} (reading : s.ps.state = .readArg) (h : extendsArg s.ps.nd b = true)
    (fits : ArgFits s.ps) : ArgFits { s.ps with acc := s.ps.acc * 10 + digitValue b, nd := s.ps.nd + 1 } := by
  intro _
  obtain ⟨digit, room⟩ := extendsArg_iff.mp h
  obtain ⟨-, small⟩ := fits reading
  have value := digitValue_lt digit
  refine ⟨room, ?_⟩
  dsimp only
  rw [Nat.pow_succ]
  omega

/-- Every byte but the one that ends an argument leaves the job parameters alone. -/
theorem within_parseByte {b : Byte} (h : ¬ EndsArgument b s) : Within .message s (parseByte b s) := by
  have parses (p : Parser) (fits : ArgFits s.ps → ArgFits p) : Within .message s (.next { s with ps := p }) :=
    within_next (Write.parser p Scope.message_interprets fits).single
  unfold parseByte
  cases hs : s.ps.state with
  | awaitSentinel =>
    dsimp only
    split
    · exact parses _ fun _ => nofun
    · unfold badSentinel
      split
      · exact within_next (writes_answer Scope.message_interprets ..)
      · exact within_next (writes_toSentinel Scope.message_interprets s)
  | awaitSelector =>
    dsimp only
    split
    · exact parses _ fun _ _ => ⟨Nat.zero_le 5, Nat.one_pos⟩
    · exact within_shortInstr b
  | readArg =>
    dsimp only
    split
    · next digit => exact parses _ (argFits_digit hs digit)
    · next other => exact absurd ⟨hs, Bool.eq_false_iff.mpr other⟩ h

/-- FOREGROUND's turn executes a set command, whose argument the oldest byte ends, or it leaves the job parameters alone. -/
theorem foregroundStep_effect (s : State) :
    Within .message s (foregroundStep s) ∨
    ∃ b rest, s.agenda = [] ∧ s.job.phase = .none ∧ s.rx = b :: rest ∧ EndsArgument b s ∧
      foregroundStep s = .next (setCommand s.ps.cmd (readArgument b s) { s with rx := rest }) := by
  rcases foregroundStep_cases s with ⟨nothing_pending, no_job, h⟩ | h
  · rw [h]
    cases hrx : s.rx with
    | nil => exact .inl (rxRead_nil hrx ▸ within_next .refl)
    | cons b rest =>
      rw [rxRead_cons hrx]
      by_cases ends : EndsArgument b s
      · have sets := parseByte_of_endsArgument (s := { s with rx := rest }) ends
        exact .inr ⟨b, rest, nothing_pending, no_job, rfl, ends, sets⟩
      · exact .inl (within_after (.receive rest) (within_parseByte (s := { s with rx := rest }) ends))
  · exact .inl h.of_operation

theorem writes_foregroundStep {t : State} (h : foregroundStep s = .next t) : Writes .setting s t := by
  rcases foregroundStep_effect s with within | ⟨b, rest, -, -, -, -, hset⟩
  · exact (within.writes t h).of_message
  · rw [hset] at h
    cases h
    exact (writes_setCommand ..).head (.receive rest)

end Foreground

/-! ### Every turn -/

/-- STEP_TIMER raises the enabled event, or does nothing. -/
theorem timerStep_effect {s t : State} (h : timerStep s = .next t) : t = s ∨ ∃ e, EventEffect s e t := by
  have of_pulseEnd (he : t = s ∨ EventEffect s .pulseEnd t) : t = s ∨ ∃ e, EventEffect s e t :=
    he.imp_right fun he => ⟨_, he⟩
  unfold timerStep at h
  split at h
  · cases hn : s.tmr.next with
    | pulseStart =>
      rw [hn] at h
      exact (pulseStart_effect h).imp_right fun he => ⟨_, he⟩
    | pulseEnd =>
      rw [hn] at h
      cases hm : s.mc.mode with
      | normal => exact of_pulseEnd (pulseEndIn_effect dispatchNormal_dispatched (by rwa [hm] at h))
      | fromTable => exact of_pulseEnd (pulseEndIn_effect dispatchFromTable_dispatched (by rwa [hm] at h))
      | raster => exact of_pulseEnd (pulseEndIn_effect dispatchRaster_dispatched (by rwa [hm] at h))
      | reserved => exact of_pulseEnd (pulseEndIn_effect dispatchReserved_dispatched (by rwa [hm] at h))
  · cases h
    exact .inl rfl

theorem writes_timeoutStep (s : State) : Writes .message s (timeoutStep s) := by
  unfold timeoutStep
  split
  · exact .refl
  · split
    · exact writes_answer Scope.message_interprets .err s
    · split
      · unfold lineTimeout
        split
        · exact ((writes_reply .nak s).tail (.agenda [])).tail .endJob
        · exact .refl
      · exact .refl

/-- What a turn can do: writes, or, when it is STEP_TIMER's, the effect of the enabled event. -/
theorem takeTurn_effect {c : Turn} {s t : State} (h : takeTurn c s = .next t) :
    Writes .setting s t ∨ (c = .timer ∧ ∃ e, EventEffect s e t) := by
  cases c with
  | foreground => exact .inl (writes_foregroundStep h)
  | timer =>
    rcases timerStep_effect h with rfl | he
    · exact .inl .refl
    · exact .inr ⟨rfl, he⟩
  | host b =>
    cases h
    exact .inl (Write.receive _).single
  | timeout =>
    cases h
    exact .inl (writes_timeoutStep s).of_message

/-! ### What one write leaves, and what any number of them leave -/

section Frames

variable {k : Scope} {s t : State}

/-- What no single write changes, no number of them changes. -/
theorem writes_unchanged {α : Type} (f : State → α) (unchanged : ∀ {u v}, Write k u v → f v = f u)
    (h : Writes k s t) : f t = f s := by
  induction h with
  | refl => rfl
  | tail _ hw ih => exact (unchanged hw).trans ih

theorem write_cfg (h : Write k s t) : t.cfg = s.cfg := by
  cases h <;> rfl

theorem writes_cfg : Writes k s t → t.cfg = s.cfg := writes_unchanged State.cfg write_cfg

theorem write_pulses (h : Write k s t) : t.pulses = s.pulses := by
  cases h <;> rfl

theorem writes_pulses : Writes k s t → t.pulses = s.pulses := writes_unchanged State.pulses write_pulses

theorem write_jp (hk : k ≠ .setting) (h : Write k s t) : t.jp = s.jp := by
  cases h with
  | parameter c v sets => exact absurd sets hk
  | _ => rfl

theorem writes_jp (hk : k ≠ .setting) : Writes k s t → t.jp = s.jp := writes_unchanged State.jp (write_jp hk)

/-- Sending is the only write to the transmit stream, and it appends (R51). -/
theorem write_tx (h : Write k s t) : ∃ bytes, t.tx = s.tx ++ bytes := by
  cases h with
  | send bytes => exact ⟨bytes, rfl⟩
  | _ => exact ⟨[], (List.append_nil _).symm⟩

theorem writes_tx (h : Writes k s t) : ∃ bytes, t.tx = s.tx ++ bytes := by
  induction h with
  | refl => exact ⟨[], (List.append_nil _).symm⟩
  | tail _ hw ih =>
    obtain ⟨first, h₁⟩ := ih
    obtain ⟨more, h₂⟩ := write_tx hw
    exact ⟨first ++ more, by rw [h₂, h₁, List.append_assoc]⟩

/-- The registers and the memory that FOREGROUND only reads during a move (R71, R72). -/
def engineState (s : State) :
    MoveCommand × StepTimer × Pwm × Axis × PhysDir × Bool × Bool × Memory × List Pulse :=
  (s.mc, s.tmr, s.pwm, s.axis, s.physDir, s.running, s.stepOut, s.scan, s.pulses)

/-- The writes to them are those that ask for an idle engine. -/
theorem write_engineState (moving : s.running = true) (h : Write k s t) : engineState t = engineState s := by
  cases h with
  | store _ _ idle | latches _ _ idle | duty _ idle | output _ idle | arm _ _ _ _ _ idle =>
    exact nomatch moving.symm.trans idle
  | _ => rfl

theorem writes_engineState (moving : s.running = true) (h : Writes k s t) : engineState t = engineState s := by
  induction h with
  | refl => rfl
  | @tail u t _ hw ih =>
    have still_moving : u.running = true := by
      simp only [engineState, Prod.mk.injEq] at ih
      simp [ih, moving]
    exact (write_engineState still_moving hw).trans ih

/-- An operation leaves the parser as it is, and no job outside one; or it has ended the job. -/
theorem write_operation_ps (h : Write .operation s t) :
    (t.ps = s.ps ∧ (s.job.phase = .none → t.job.phase = .none)) ∨
    (t.ps = { s.ps with state := .awaitSentinel } ∧ t.job.phase = .none) := by
  cases h with
  | endJob => exact .inr ⟨rfl, rfl⟩
  | sequencer j keeps_no_job => exact .inl ⟨rfl, keeps_no_job⟩
  | parser _ interprets | beginJob interprets => exact absurd rfl interprets
  | _ => exact .inl ⟨rfl, id⟩

theorem writes_operation_ps (h : Writes .operation s t) :
    (t.ps = s.ps ∧ (s.job.phase = .none → t.job.phase = .none)) ∨
    (t.ps = { s.ps with state := .awaitSentinel } ∧ t.job.phase = .none) := by
  induction h with
  | refl => exact .inl ⟨rfl, id⟩
  | tail _ hw ih =>
    rcases write_operation_ps hw with ⟨same', no_job'⟩ | ⟨scans', ended'⟩
    · rcases ih with ⟨same, no_job⟩ | ⟨scans, ended⟩
      · exact .inl ⟨same'.trans same, no_job' ∘ no_job⟩
      · exact .inr ⟨same'.trans scans, no_job' ended⟩
    · rcases ih with ⟨same, -⟩ | ⟨scans, -⟩
      · exact .inr ⟨same ▸ scans', ended'⟩
      · exact .inr ⟨scans'.trans (by rw [scans]), ended'⟩

end Frames

/-! ### What an event leaves -/

section EventFrames

variable {e : TimerEvent} {s t : State}

theorem endPulse_eq (s : State) :
    endPulse s =
      { s with stepOut := false, mc := { s.mc with stepIndex := (advanceIndex s.mc).stepIndex } } := by
  unfold endPulse advanceIndex
  split <;> rfl

theorem event_frame (h : EventEffect s e t) :
    t =
      { s with
        mc := { s.mc with stepIndex := t.mc.stepIndex }, running := t.running, tmr := t.tmr, stepOut := t.stepOut,
        pwm := { s.pwm with duty := t.pwm.duty }, pulses := t.pulses, fresh := t.fresh } := by
  cases h with
  | pulseStart => rfl
  | completes => rw [endPulse_eq]; rfl
  | goesOn _ _ dispatched =>
    rw [endPulse_eq] at dispatched
    cases dispatched <;> rfl

theorem event_cfg (h : EventEffect s e t) : t.cfg = s.cfg := by rw [event_frame h]

theorem event_jp (h : EventEffect s e t) : t.jp = s.jp := by rw [event_frame h]

theorem event_tx (h : EventEffect s e t) : t.tx = s.tx := by rw [event_frame h]

/-- The pulse-start event records the pulse; the pulse-end event records none. -/
theorem event_pulses (h : EventEffect s e t) :
    t.pulses = s.pulses ∨
    (e = .pulseStart ∧ s.tmr.run = true ∧ s.tmr.next = .pulseStart ∧
      t.pulses =
        s.pulses ++ [{ axis := s.axis, physDir := s.physDir, delay := s.tmr.cmpStart, laser := laserOut s }]) := by
  cases h with
  | pulseStart enabled =>
    obtain ⟨runs, next⟩ := eventEnabled_iff.mp enabled
    exact .inr ⟨rfl, runs, next, rfl⟩
  | completes => exact .inl rfl
  | goesOn _ _ dispatched => cases dispatched <;> exact .inl rfl

end EventFrames

theorem laserOut_afterChoice (s : State) : laserOut (afterChoice s) = laserOut s := by
  simp only [laserOut_eq, afterChoice_pwm]

/-! ### The engine's invariants -/

section EngineInvariant

variable {k : Scope} {e : TimerEvent} {s t : State}

/-- A set command within its limit keeps the widths within the buffer (R195). -/
theorem setRegister_widths {c : Selector} {v : U16} (inRange : v.toNat ≤ setLimit s.cfg c)
    (h : s.jp.outWidth ≤ s.cfg.scanCap ∧ s.jp.pixelWidth ≤ s.cfg.scanCap) :
    (setRegister v s.jp c).outWidth ≤ s.cfg.scanCap ∧ (setRegister v s.jp c).pixelWidth ≤ s.cfg.scanCap := by
  cases c with
  | x => exact ⟨BitVec.le_def.mpr inRange, h.2⟩
  | p => exact ⟨h.1, BitVec.le_def.mpr inRange⟩
  | y | b | s | r | v => exact h

/-- A move starts below its total: at 0, or at the total less one (R123). -/
theorem startIndex_lt {dir : Direction} {total : U16} (steps : total ≠ 0) : startIndex dir total < total := by
  cases dir with
  | forward => simp only [startIndex]; bv_omega
  | reverse => simp only [startIndex]; bv_omega

/-- An event that does not complete the move leaves the index below the total (R126, R127). -/
theorem advanceIndex_lt {mc : MoveCommand} (going : moveDone mc = false) (h : mc.stepIndex < mc.totalSteps) :
    (advanceIndex mc).stepIndex < mc.totalSteps := by
  unfold moveDone at going
  unfold advanceIndex
  cases hd : mc.direction with
  | forward =>
    rw [hd] at going
    have not_last := of_decide_eq_false going
    dsimp only
    bv_omega
  | reverse =>
    rw [hd] at going
    have not_last := of_decide_eq_false going
    dsimp only
    bv_omega

theorem modeReg_ne_reserved (mode : MoveMode) : modeReg mode ≠ .reserved := by
  cases mode <;> nofun

/-- Every write keeps the engine's invariants; most touch nothing that the invariants speak of. -/
theorem write_engineInv (hi : EngineInv s) (h : Write k s t) : EngineInv t := by
  obtain ⟨timer, output, ⟨canonical, capacity⟩, widths, argument, move, stepOut⟩ := hi
  cases h with
  | send | receive | agenda | fresh | sequencer | latches | duty | beginJob =>
    exact ⟨timer, output, ⟨canonical, capacity⟩, widths, argument, move, stepOut⟩
  | endJob => exact ⟨timer, output, ⟨canonical, capacity⟩, widths, nofun, move, stepOut⟩
  | output v => exact ⟨timer, rfl, ⟨canonical, capacity⟩, widths, argument, move, stepOut⟩
  | parser p _ fits => exact ⟨timer, output, ⟨canonical, capacity⟩, widths, fits argument, move, stepOut⟩
  | parameter c v _ inRange =>
    exact ⟨timer, output, ⟨canonical, capacity⟩, setRegister_widths inRange widths, argument, move, stepOut⟩
  | store i b _ inside =>
    have capacity' : ∀ c ∈ s.scan.write i b, c.1 < s.cfg.scanCap.toNat := by
      intro c hc
      rcases Memory.mem_write hc with rfl | hc
      · exact inside
      · exact capacity c hc
    exact ⟨timer, output, ⟨Memory.write_wf i b canonical, capacity'⟩, widths, argument, move, stepOut⟩
  | arm mode dir total delay offset idle steps long =>
    have low : s.cfg.firstEvent = .pulseStart → s.stepOut = false := fun first =>
      Bool.eq_false_iff.mpr fun high => nomatch ((stepOut first).mp high).1.symm.trans idle
    exact ⟨rfl, output, ⟨canonical, capacity⟩, widths, argument,
      fun _ => ⟨modeReg_ne_reserved mode, startIndex_lt steps, long, rfl⟩, fun first =>
        ⟨fun high => (nomatch (low first).symm.trans high), fun ⟨_, next⟩ => nomatch first.symm.trans next⟩⟩

theorem writes_engineInv (hi : EngineInv s) (h : Writes k s t) : EngineInv t := by
  induction h with
  | refl => exact hi
  | tail _ hw ih => exact write_engineInv ih hw

/-- Every enabled event keeps the engine's invariants: it finds a move active, for the timer runs. -/
theorem event_engineInv (hi : EngineInv s) (h : EventEffect s e t) : EngineInv t := by
  obtain ⟨timer, output, scan, widths, argument, move, stepOut⟩ := hi
  have moving {e : TimerEvent} (enabled : eventEnabled e s = true) : s.running = true :=
    timer ▸ (eventEnabled_iff.mp enabled).1
  cases h with
  | pulseStart enabled =>
    exact ⟨timer, output, scan, widths, argument, move, fun _ => ⟨fun _ => ⟨moving enabled, rfl⟩, fun _ => rfl⟩⟩
  | completes => exact ⟨rfl, output, scan, widths, argument, nofun, fun _ => ⟨nofun, nofun⟩⟩
  | goesOn enabled going dispatched =>
    obtain ⟨mode, below, long, apart⟩ := move (moving enabled)
    have mode' : (advanceIndex s.mc).mode ≠ .reserved := by rwa [advanceIndex_mode]
    have below' : (advanceIndex s.mc).stepIndex < (advanceIndex s.mc).totalSteps := by
      rw [advanceIndex_totalSteps]
      exact advanceIndex_lt going below
    cases dispatched with
    | kept | redrawn =>
      exact ⟨timer, output, scan, widths, argument, fun _ => ⟨mode', below', long, apart⟩, fun _ => ⟨nofun, nofun⟩⟩
    | reprogrammed d long' =>
      exact ⟨timer, output, scan, widths, argument, fun _ => ⟨mode', below', long', rfl⟩, fun _ => ⟨nofun, nofun⟩⟩

/-- The choice of the turn moves only the model's own counters (log 3). -/
theorem afterChoice_engineInv (hi : EngineInv s) : EngineInv (afterChoice s) := by
  unfold afterChoice
  split <;> exact hi

end EngineInvariant

/-! ### A turn that changes a job parameter -/

/-- A set command that changes a parameter has an argument that the delimiter ended (R194). -/
theorem term_of_setCommand_jp {c : Selector} {a : Arg} {s : State} (changed : (setCommand c a s).jp ≠ s.jp) :
    a.term = delimiter := by
  rcases setCommand_cases c a s with ⟨valid, -, -⟩ | ⟨-, -, h⟩ | ⟨-, h⟩
  · simp only [Arg.valid, Bool.and_eq_true, decide_eq_true_eq] at valid
    exact valid.1
  · exact absurd (by rw [h]; rfl) changed
  · exact absurd (by rw [h]; rfl) changed

/-- A turn that changes a parameter executes a set command. -/
theorem takeTurn_changing_jp {c : Turn} {s t : State} (h : takeTurn c s = .next t) (changed : t.jp ≠ s.jp) :
    c = .foreground ∧ s.agenda = [] ∧ s.job.phase = .none ∧ s.ps.state = .readArg ∧
    ∃ rest, s.rx = delimiter :: rest ∧
      takeTurn c s = exec (setInstr s.ps.cmd (readArgument delimiter s)) { s with rx := rest } := by
  cases c with
  | foreground =>
    rcases foregroundStep_effect s with within | ⟨b, rest, nothing_pending, no_job, oldest, ⟨reading, -⟩, hset⟩
    · exact absurd (writes_jp Scope.message_ne_setting (within.writes t h)) changed
    · have ht : t = setCommand s.ps.cmd (readArgument b s) { s with rx := rest } :=
        Host.Outcome.next.inj (h.symm.trans hset)
      obtain rfl : b = delimiter := term_of_setCommand_jp (ht ▸ changed)
      exact ⟨rfl, nothing_pending, no_job, reading, rest, oldest, hset.trans (exec_setInstr ..).symm⟩
  | timer =>
    rcases timerStep_effect h with rfl | ⟨e, event⟩
    · exact absurd rfl changed
    · exact absurd (event_jp event) changed
  | host b =>
    cases h
    exact absurd rfl changed
  | timeout =>
    cases h
    exact absurd (writes_jp Scope.message_ne_setting (writes_timeoutStep s)) changed

/-! ### The statements -/

/-- Settles O56: the writes of an instruction keep the invariants one by one, and so does the effect of its event. -/
theorem everyInstructionKeepsEngineInv : Obligations.EveryInstructionKeepsEngineInv := by
  intro i s t hi h
  rcases exec_effect h with writes | ⟨e, event, -⟩
  · exact writes_engineInv hi writes
  · exact event_engineInv hi event

/-- Settles O57: so do the writes, or the event, of the agent whose turn it is. -/
theorem everyStepKeepsEngineInv : Obligations.EveryStepKeepsEngineInv := by
  intro s t hi h
  rcases takeTurn_effect h with writes | ⟨-, e, event⟩
  · exact writes_engineInv (afterChoice_engineInv hi) writes
  · exact event_engineInv (afterChoice_engineInv hi) event

/-- Settles O18: every write appends to the stream or leaves it, and no event writes it. -/
theorem transmitStreamOnlyGrows : Obligations.TransmitStreamOnlyGrows := by
  intro s t h
  rw [← afterChoice_tx s]
  rcases takeTurn_effect h with writes | ⟨-, e, event⟩
  · exact writes_tx writes
  · exact ⟨[], by rw [event_tx event, List.append_nil]⟩

/-- Settles O28: the frame of the event that STEP_TIMER raises, if it raises one. -/
theorem eventsKeepTheirSideOfTheSingleWriterRule : Obligations.EventsKeepTheirSideOfTheSingleWriterRule := by
  intro s t h
  rcases timerStep_effect h with rfl | ⟨e, event⟩
  · rfl
  · exact event_frame event

/-- Settles O29: every write to the engine asks for an idle one. -/
theorem foregroundOnlyReadsDuringAMove : Obligations.ForegroundOnlyReadsDuringAMove := by
  intro s t moving h
  have same : engineState t = engineState s := writes_engineState moving (writes_foregroundStep h)
  simp only [engineState, Prod.mk.injEq, moving] at same
  exact same

/-- Settles O52: no write and no event touches `cfg`. -/
theorem noStepChangesTheTable : Obligations.NoStepChangesTheTable := by
  intro s t h
  rw [← afterChoice_cfg s]
  rcases takeTurn_effect h with writes | ⟨-, e, event⟩
  · exact writes_cfg writes
  · exact event_cfg event

/-- Settles O53: no write records a pulse, and of the events only the pulse-start does. -/
theorem pulsesAreRecordedAtPulseStartOnly : Obligations.PulsesAreRecordedAtPulseStartOnly := by
  constructor
  · intro i s t h
    rcases exec_effect h with writes | ⟨e, event, own⟩
    · exact .inl (writes_pulses writes)
    · exact (event_pulses event).imp_right fun ⟨he, _, _, recorded⟩ => ⟨own he, recorded⟩
  · intro s t h
    rcases takeTurn_effect h with writes | ⟨turn, e, event⟩
    · exact .inl ((writes_pulses writes).trans (afterChoice_pulses s))
    · have recorded := event_pulses event
      simp only [afterChoice_pulses, afterChoice_tmr, afterChoice_axis, afterChoice_physDir,
        laserOut_afterChoice] at recorded
      exact recorded.imp_right fun ⟨_, record⟩ => ⟨turn, record⟩

/-- Settles O54: in a job FOREGROUND's turn is an operation's, which leaves the parser alone but for the end of the job. -/
theorem jobsInterpretNoCommand : Obligations.JobsInterpretNoCommand := by
  intro s t in_job h
  have writes : Writes .operation s t := (within_foregroundStep_in_job in_job).writes t h
  refine ⟨writes_jp Scope.operation_ne_setting writes, ?_⟩
  rcases writes_operation_ps writes with ⟨same, -⟩ | ⟨scans, ended⟩
  · rw [same]
    exact ⟨rfl, rfl, rfl, .inl rfl⟩
  · rw [scans]
    exact ⟨rfl, rfl, rfl, .inr ⟨rfl, ended⟩⟩

/-- Settles O51: the one write to `jp` is in the scope of the set commands, and the one turn with that scope is
FOREGROUND's, as the parser at the end of an argument. -/
theorem onlySetCommandsWriteParameters : Obligations.OnlySetCommandsWriteParameters := by
  constructor
  · intro i s t h no_set
    have message : scopeOf i ≠ .setting := by
      simp [scopeOf, no_set]
    rcases exec_effect h with writes | ⟨e, event, -⟩
    · exact writes_jp message writes
    · exact event_jp event
  · intro s t h changed
    have same_set : setInstr (afterChoice s).ps.cmd (readArgument delimiter (afterChoice s)) =
        setInstr s.ps.cmd (readArgument delimiter s) := by
      simp only [readArgument, afterChoice_ps]
    obtain ⟨turn, nothing_pending, no_job, reading, rest, oldest, executes⟩ :=
      takeTurn_changing_jp h (afterChoice_jp s ▸ changed)
    rw [same_set] at executes
    rw [afterChoice_agenda] at nothing_pending
    rw [afterChoice_job] at no_job
    rw [afterChoice_ps] at reading
    rw [afterChoice_rx] at oldest
    exact ⟨turn, nothing_pending, no_job, reading, rest, oldest, executes⟩

/-- Settles O17: the bytes are those of the encoding. -/
theorem repliesSendTheirBytes : Obligations.RepliesSendTheirBytes := fun _ => ⟨rfl, rfl, rfl, rfl, rfl⟩

/-- Settles O19: the prescribed turn is used up, and `hostStep` is what is left. -/
theorem hostOnlyAppends : Obligations.HostOnlyAppends := fun s b => stepAs_eq_takeTurn (.host b) s

/-- Settles O50: every clause is read off the reset state. -/
theorem resetLeavesTheBlockIdle : Obligations.ResetLeavesTheBlockIdle := by
  refine ⟨rfl, rfl, rfl, ?_⟩
  rintro c s rfl
  exact ⟨rfl, rfl, rfl, rfl, rfl, rfl, rfl, rfl, rfl, rfl, rfl, rfl, rfl, fun _ => rfl, rfl, rfl, rfl, rfl, rfl⟩

end Sys2Proof.Machine

/-! SUPPORT. The ScanlineBuffer (R63): what the store of a payload leaves in it, which accesses fault, and how a raster
move's pulse-end event reads it; with the statements O14, O15 and O25, which rest on them. -/

namespace Sys2Proof.Machine

/-! ### Several bytes in a row -/

/-- Store bytes one after another from element `i` on. -/
def Memory.writeFrom : Memory → Nat → List Byte → Memory
  | m, _, [] => m
  | m, i, b :: bs => Memory.writeFrom (m.write i b) (i + 1) bs

theorem Memory.read_writeFrom_outside {m : Memory} {i j : Nat} {bytes : List Byte}
    (outside : j < i ∨ i + bytes.length ≤ j) : (m.writeFrom i bytes).read j = m.read j := by
  induction bytes generalizing m i with
  | nil => rfl
  | cons b bs ih =>
    rw [List.length_cons] at outside
    calc (m.writeFrom i (b :: bs)).read j
      _ = (m.write i b).read j := ih (by omega)
      _ = m.read j := Memory.read_write_other m b (by omega)

theorem Memory.read_writeFrom_inside {m : Memory} {i j : Nat} {bytes : List Byte} (inside : j < bytes.length) :
    (m.writeFrom i bytes).read (i + j) = bytes[j]? := by
  induction bytes generalizing m i j with
  | nil => exact absurd inside (Nat.not_lt_zero j)
  | cons b bs ih =>
    cases j with
    | zero =>
      calc (m.writeFrom i (b :: bs)).read i
        _ = (m.write i b).read i := Memory.read_writeFrom_outside (.inl (Nat.lt_succ_self i))
        _ = some b := Memory.read_write_same m i b
    | succ j =>
      rw [Nat.add_comm j, ← Nat.add_assoc, Nat.add_comm 1, List.getElem?_cons_succ]
      exact ih (Nat.lt_of_succ_lt_succ inside)

/-! ### Payload -/

theorem exec_payload (bytes : List Byte) (s : State) : exec (.payload bytes) s = storeLine bytes s := rfl

/-- The faults of a store: the single-writer rule comes before the range (log 9). -/
theorem writeScan_fault {i : Nat} {b : Byte} {s : State} {e : Fault} :
    writeScan i b s = .fault e ↔
      (s.running = true ∧ e = .singleWriterScan s) ∨
      (s.running = false ∧ s.cfg.scanCap.toNat ≤ i ∧ e = .scanRange i s) := by
  unfold writeScan
  split
  · next moving => simp [moving, @eq_comm _ e]
  · next idle =>
    split
    · next inside => simp [idle, Nat.not_le.mpr inside]
    · next outside => simp [idle, Nat.le_of_not_lt outside, @eq_comm _ e]

/-- A store that faults ends the payload it is the first byte of. -/
theorem storeLine_fault {b : Byte} {bs : List Byte} {s : State} {e : Fault}
    (h : writeScan s.job.col.toNat b s = .fault e) : storeLine (b :: bs) s = .fault e := by
  rw [storeLine_cons, h, andThen_fault]

/-- A payload that fits is stored whole; the column stays below 2^16, as the capacity does (R63). -/
theorem storeLine_eq {bytes : List Byte} {s : State} (idle : s.running = false)
    (fits : s.job.col.toNat + bytes.length ≤ s.cfg.scanCap.toNat) :
    storeLine bytes s =
      .next { s with
        scan := s.scan.writeFrom s.job.col.toNat bytes
        job := { s.job with col := s.job.col + BitVec.ofNat 16 bytes.length } } := by
  induction bytes generalizing s with
  | nil => simp [Memory.writeFrom]
  | cons b bs ih =>
    rw [List.length_cons] at fits
    have col_succ : (s.job.col + 1).toNat = s.job.col.toNat + 1 := by bv_omega
    have length_succ : BitVec.ofNat 16 (b :: bs).length = 1 + BitVec.ofNat 16 bs.length := by
      rw [List.length_cons, Nat.add_comm, BitVec.ofNat_add]
      rfl
    have inside : s.job.col.toNat < s.cfg.scanCap.toNat := by omega
    have rest_fits : (s.job.col + 1).toNat + bs.length ≤ s.cfg.scanCap.toNat := by omega
    rw [storeLine_cons, (writeScan_next (b := b)).mpr ⟨idle, inside, rfl⟩, andThen_next, ih]
    · simp only [col_succ, length_succ, Memory.writeFrom, BitVec.add_assoc]
    · exact idle
    · exact rest_fits

/-- Settles O14: the payload is stored by `Memory.writeFrom`, whose reads are known inside and outside the line. -/
theorem payloadIsStoredInOrder : Obligations.PayloadIsStoredInOrder := by
  intro bytes s idle fits
  refine ⟨_, (exec_payload bytes s).trans (storeLine_eq idle fits), ?stored, ?others, ?column, rfl⟩
  case stored => exact fun _ inside => Memory.read_writeFrom_inside inside
  case others => exact fun _ outside => Memory.read_writeFrom_outside outside
  case column =>
    change (s.job.col + BitVec.ofNat 16 bytes.length).toNat = s.job.col.toNat + bytes.length
    bv_omega

/-! ### Accesses outside the buffer -/

/-- A reverse move of some steps starts at its last pixel (R123). -/
theorem startIndex_reverse_toNat {w : U16} (steps : w ≠ 0) : (startIndex .reverse w).toNat = w.toNat - 1 := by
  change (w - 1).toNat = w.toNat - 1
  bv_omega

/-- The first pixel is read before anything is touched (R157). -/
theorem exec_rasterMove_outside {w offset rate : U16} {dir : Direction} {s : State}
    (outside : s.cfg.scanCap.toNat ≤ scanIndex offset (startIndex dir w)) :
    exec (.rasterMove w offset dir rate) s = .fault (.scanRange (scanIndex offset (startIndex dir w)) s) := by
  change execRasterMove w offset dir rate s = _
  exact readScan_fault.mpr (.inl ⟨outside, rfl⟩)

/-- Settles O15: the first access of each operation is the one that faults. -/
theorem scanAccessesThatFault : Obligations.ScanAccessesThatFault := by
  refine ⟨fun b bs s => ⟨fun moving => ?_, fun idle outside => ?_⟩, ?_⟩
  · exact (exec_payload _ s).trans <| storeLine_fault (writeScan_fault.mpr (.inl ⟨moving, rfl⟩))
  · exact (exec_payload _ s).trans <| storeLine_fault (writeScan_fault.mpr (.inr ⟨idle, outside, rfl⟩))
  · intro s w offset rate dir first steps pixel outside
    have first_eq : scanIndex offset (startIndex dir w) = first := by
      cases dir with
      | forward => exact pixel.symm
      | reverse => rw [scanIndex, startIndex_reverse_toNat steps, pixel]
    subst first_eq
    exact exec_rasterMove_outside outside

/-! ### The two outcomes of a pulse-end event -/

/-- The state in which a pulse-end event dispatches: the step output fallen, the index moved to `index` (R125). -/
def pulseEnded (index : U16) (s : State) : State :=
  { s with stepOut := false, mc := { s.mc with stepIndex := index } }

theorem moveDone_of_completesAt {mc : MoveCommand} (last : CompletesAt mc) : moveDone mc = true := by
  unfold moveDone
  obtain ⟨dir, index⟩ | ⟨dir, index⟩ := last <;> rw [dir] <;> exact decide_eq_true index

theorem complete_endPulse {s : State} (last : CompletesAt s.mc) : complete (endPulse s) = completed s := by
  have final : (advanceIndex s.mc).stepIndex = finalIndex s.mc.direction s.mc.totalSteps := by
    unfold advanceIndex finalIndex
    obtain ⟨dir, index⟩ | ⟨dir, index⟩ := last
    · simpa [dir] using index
    · simp [dir, index]
  rw [endPulse_eq, final]
  rfl

theorem moveDone_of_goesOnTo {mc : MoveCommand} {index : U16} (next : GoesOnTo mc index) : moveDone mc = false := by
  unfold moveDone
  obtain ⟨dir, rfl, going⟩ | ⟨dir, going, -⟩ := next <;> rw [dir] <;> exact decide_eq_false going

theorem endPulse_of_goesOnTo {s : State} {index : U16} (next : GoesOnTo s.mc index) :
    endPulse s = pulseEnded index s := by
  have moved : (advanceIndex s.mc).stepIndex = index := by
    unfold advanceIndex
    obtain ⟨dir, rfl, -⟩ | ⟨dir, -, rfl⟩ := next <;> simp [dir]
  rw [endPulse_eq, moved]
  rfl

section PulseEnd

variable {mode : ModeReg} {dispatch : State → Result} {s : State}

theorem pulseEndIn_enabled (runs : s.tmr.run = true) (due : s.tmr.next = .pulseEnd) (in_mode : s.mc.mode = mode) :
    pulseEndIn mode dispatch s = pulseEndEvent dispatch s := by
  simp [pulseEndIn, eventEnabled, runs, due, in_mode]

/-- The completing event does not dispatch (R125, R128). -/
theorem pulseEndEvent_completes (last : CompletesAt s.mc) : pulseEndEvent dispatch s = .next (completed s) :=
  pulseEndEvent_next.mpr (.inl ⟨moveDone_of_completesAt last, (complete_endPulse last).symm⟩)

/-- The event of a move that goes on dispatches with the new index, then arms the next pulse-start (R125). -/
theorem pulseEndEvent_goesOn {index : U16} (next : GoesOnTo s.mc index) :
    pulseEndEvent dispatch s =
      andThen (dispatch (pulseEnded index s)) fun t => .next { t with tmr := { t.tmr with next := .pulseStart } } := by
  simp [pulseEndEvent, moveDone_of_goesOnTo next, endPulse_of_goesOnTo next]

end PulseEnd

/-! ### The duty of a raster move -/

theorem dispatchRaster_written {s : State} {b : Byte}
    (inside : s.mc.scanlineOffset.toNat + s.mc.stepIndex.toNat < s.cfg.scanCap.toNat)
    (written : s.scan.read (s.mc.scanlineOffset.toNat + s.mc.stepIndex.toNat) = some b) :
    dispatchRaster s = .next { s with pwm := { s.pwm with duty := b } } := by
  refine readScan_next.mpr ⟨inside, ?_⟩
  rw [scanIndex, scanValue_of_written written, scanTouch_of_written written]

/-- Reading an element that nothing has written uses up one free value (U9, D34). -/
theorem scanTouch_of_unwritten {i : Nat} {s : State} (h : s.scan.read i = none) :
    scanTouch i s = { s with fresh := s.fresh + 1 } := by
  simp [scanTouch, h]

theorem dispatchRaster_unwritten {s : State}
    (inside : s.mc.scanlineOffset.toNat + s.mc.stepIndex.toNat < s.cfg.scanCap.toNat)
    (unwritten : s.scan.read (s.mc.scanlineOffset.toNat + s.mc.stepIndex.toNat) = none) :
    ∃ b, dispatchRaster s = .next { s with pwm := { s.pwm with duty := b }, fresh := s.fresh + 1 } := by
  refine ⟨scanValue (scanIndex s.mc.scanlineOffset s.mc.stepIndex) s, readScan_next.mpr ⟨inside, ?_⟩⟩
  rw [scanIndex, scanTouch_of_unwritten unwritten]

theorem dispatchRaster_outside {s : State}
    (outside : s.cfg.scanCap.toNat ≤ s.mc.scanlineOffset.toNat + s.mc.stepIndex.toNat) :
    dispatchRaster s = .fault (.scanRange (s.mc.scanlineOffset.toNat + s.mc.stepIndex.toNat) s) :=
  readScan_fault.mpr (.inl ⟨outside, rfl⟩)

theorem exec_pulseEndRaster {s : State} (runs : s.tmr.run = true) (due : s.tmr.next = .pulseEnd)
    (in_mode : s.mc.mode = .raster) : exec .pulseEndRaster s = pulseEndEvent dispatchRaster s :=
  pulseEndIn_enabled runs due in_mode

/-- Settles O25: the dispatch of the state with the new index reads a written element, an unwritten one, or none. -/
theorem pulseEndRasterRewritesTheDuty : Obligations.PulseEndRasterRewritesTheDuty := by
  intro s runs due in_mode
  rw [exec_pulseEndRaster runs due in_mode]
  refine ⟨pulseEndEvent_completes, fun index next => ?_⟩
  rw [pulseEndEvent_goesOn next]
  refine ⟨fun inside => ⟨fun b written => ?_, fun unwritten => ?_⟩, fun outside => ?_⟩
  · rw [dispatchRaster_written (s := pulseEnded index s) inside written]
    rfl
  · obtain ⟨b, drawn⟩ := dispatchRaster_unwritten (s := pulseEnded index s) inside unwritten
    rw [drawn]
    exact ⟨b, rfl⟩
  · rw [dispatchRaster_outside (s := pulseEnded index s) outside]
    rfl

end Sys2Proof.Machine

/-! SUPPORT. The wire encodings (R91 to R99): the digits of an argument, the two shapes of a message of the command channel
(`IsCommand`), and the command decoder's inversion, which says once which bytes it accepts and as what. With the statements
O1, O2 and O3, which rest on it. -/

namespace Sys2Proof

/-! ### Digits -/

theorem isDigit_iff {b : Byte} : isDigit b = true ↔ 0x30 ≤ b.toNat ∧ b.toNat ≤ 0x39 := by
  simp [isDigit, BitVec.le_def]

/-- The byte of a digit (R96), as `encodeDigits` writes it. -/
def digitByte (d : Nat) : Byte := BitVec.ofNat 8 (0x30 + d)

theorem digitByte_toNat {d : Nat} (h : d < 10) : (digitByte d).toNat = 0x30 + d := by
  rw [digitByte, BitVec.toNat_ofNat]
  omega

theorem isDigit_digitByte {d : Nat} (h : d < 10) : isDigit (digitByte d) = true := by
  rw [isDigit_iff, digitByte_toNat h]
  omega

theorem digitValue_digitByte {d : Nat} (h : d < 10) : digitValue (digitByte d) = d := by
  rw [digitValue, digitByte_toNat h, Nat.add_sub_cancel_left]

theorem digitByte_digitValue {b : Byte} (h : isDigit b = true) : digitByte (digitValue b) = b := by
  obtain ⟨low, -⟩ := isDigit_iff.mp h
  rw [digitByte, digitValue, Nat.add_sub_cancel' low, BitVec.ofNat_toNat, BitVec.setWidth_eq]

theorem encodeDigits_zero (v : Nat) : encodeDigits 0 v = [] := rfl

theorem encodeDigits_succ (n v : Nat) : encodeDigits (n + 1) v = encodeDigits n (v / 10) ++ [digitByte (v % 10)] := rfl

theorem div_ten_lt_pow {n v : Nat} (fits : v < 10 ^ (n + 1)) : v / 10 < 10 ^ n :=
  Nat.div_lt_of_lt_mul (by rwa [Nat.pow_succ, Nat.mul_comm] at fits)

@[simp] theorem length_encodeDigits (n v : Nat) : (encodeDigits n v).length = n := by
  induction n generalizing v with
  | zero => rfl
  | succ n ih => rw [encodeDigits_succ, List.length_append, ih, List.length_singleton]

/-- One more digit byte after the digits of a value (R96: most significant first). -/
theorem encodeDigits_snoc {b : Byte} (nd acc : Nat) (digit : isDigit b = true) :
    encodeDigits (nd + 1) (acc * 10 + digitValue b) = encodeDigits nd acc ++ [b] := by
  have small := Machine.digitValue_lt digit
  have high : (acc * 10 + digitValue b) / 10 = acc := by omega
  have low : (acc * 10 + digitValue b) % 10 = digitValue b := by omega
  rw [encodeDigits_succ, high, low, digitByte_digitValue digit]

/-! ### Arguments -/

theorem Arg.wf_iff {a : Arg} : a.wf = true ↔ a.nd ≤ 5 ∧ a.acc < 10 ^ a.nd ∧ extendsArg a.nd a.term = false := by
  unfold Arg.wf Config.maxDigits
  simp only [Bool.and_eq_true, decide_eq_true_eq, Bool.not_eq_true', and_assoc]

/-- An encoded digit continues an argument that still has room for it. -/
theorem extendsArg_digitByte {nd d : Nat} (room : nd < 5) (h : d < 10) : extendsArg nd (digitByte d) = true :=
  Machine.extendsArg_iff.mpr ⟨isDigit_digitByte h, room⟩

theorem decodeArg_digit (c : Selector) {nd : Nat} (acc : Nat) {b : Byte} (rest : List Byte) (h : extendsArg nd b = true) :
    decodeArg c nd acc (b :: rest) = decodeArg c (nd + 1) (acc * 10 + digitValue b) rest := by
  rw [decodeArg, if_pos h]

theorem decodeArg_ends (c : Selector) {nd : Nat} (acc : Nat) {b : Byte} (rest : List Byte) (h : extendsArg nd b = false) :
    decodeArg c nd acc (b :: rest) = .ok (setInstr c ⟨nd, acc, b⟩, rest) := by
  rw [decodeArg, if_neg (by simp [h])]

/-- The digits of a value are read into the accumulator, before whatever comes after them. -/
theorem decodeArg_encodeDigits (c : Selector) (n : Nat) {v : Nat} (rest : List Byte) (room : n ≤ 5)
    (fits : v < 10 ^ n) : decodeArg c 0 0 (encodeDigits n v ++ rest) = decodeArg c n v rest := by
  induction n generalizing v rest with
  | zero =>
    obtain rfl : v = 0 := Nat.lt_one_iff.mp fits
    rfl
  | succ n ih =>
    have high : v / 10 < 10 ^ n := div_ten_lt_pow fits
    have low : v % 10 < 10 := Nat.mod_lt v (by decide)
    calc decodeArg c 0 0 (encodeDigits (n + 1) v ++ rest)
      _ = decodeArg c 0 0 (encodeDigits n (v / 10) ++ digitByte (v % 10) :: rest) := by
        rw [encodeDigits_succ, List.append_assoc, List.singleton_append]
      _ = decodeArg c n (v / 10) (digitByte (v % 10) :: rest) := ih _ (Nat.le_of_succ_le room) high
      _ = decodeArg c (n + 1) (v / 10 * 10 + v % 10) rest := by
        rw [decodeArg_digit c _ rest (extendsArg_digitByte room low), digitValue_digitByte low]
      _ = decodeArg c (n + 1) v rest := by rw [Nat.div_add_mod']

/-- The argument that is read carries on the digits already read, so these and the bytes read are its encoding. -/
theorem decodeArg_eq_ok {c : Selector} {nd acc : Nat} {bytes rest : List Byte} {i : Instr} (room : nd ≤ 5)
    (fits : acc < 10 ^ nd) (h : decodeArg c nd acc bytes = .ok (i, rest)) :
    ∃ a : Arg, a.wf = true ∧ i = setInstr c a ∧
      encodeDigits nd acc ++ bytes = encodeDigits a.nd a.acc ++ a.term :: rest := by
  induction bytes generalizing nd acc with
  | nil => nomatch h
  | cons b bytes ih =>
    cases hb : extendsArg nd b with
    | true =>
      obtain ⟨digit, more⟩ := Machine.extendsArg_iff.mp hb
      have small := Machine.digitValue_lt digit
      have fits' : acc * 10 + digitValue b < 10 ^ (nd + 1) := by
        rw [Nat.pow_succ]
        omega
      obtain ⟨a, read, rfl, same⟩ := ih more fits' ((decodeArg_digit c acc bytes hb).symm.trans h)
      refine ⟨a, read, rfl, ?_⟩
      rw [← same, encodeDigits_snoc nd acc digit, List.append_assoc, List.singleton_append]
    | false =>
      cases (decodeArg_ends c acc bytes hb).symm.trans h
      exact ⟨⟨nd, acc, b⟩, Arg.wf_iff.mpr ⟨room, fits, hb⟩, rfl, rfl⟩

/-! ### Selectors -/

theorem selectorOf_eq_some {b : Byte} {c : Selector} : selectorOf b = some c ↔ b = selectorByte c := by
  constructor
  · unfold selectorOf
    split_ifs with hx hy hp hb hs hr hv <;> rintro ⟨⟩ <;> assumption
  · rintro rfl
    cases c <;> rfl

section Set

variable (c : Selector) (a : Arg)

@[simp] theorem setInstr_wf : (setInstr c a).wf = a.wf := by cases c <;> rfl
@[simp] theorem wireOf_setInstr : wireOf (setInstr c a) = some .command := by cases c <;> rfl
@[simp] theorem encode_setInstr : encode (setInstr c a) = encodeSet c a := by cases c <;> rfl
@[simp] theorem setParts_setInstr : setParts (setInstr c a) = some (c, a) := by cases c <;> rfl

end Set

theorem encodeSet_append (c : Selector) (a : Arg) (rest : List Byte) :
    encodeSet c a ++ rest = sentinel :: selectorByte c :: (encodeDigits a.nd a.acc ++ a.term :: rest) := by
  simp [encodeSet]

/-- The three two-byte commands (R98). -/
theorem shortInstr_cases (b : Byte) :
    (b = 0x23 ∧ shortInstr b = .handshake) ∨ (b = 0x21 ∧ shortInstr b = .start) ∨
    (b ≠ 0x23 ∧ b ≠ 0x21 ∧ shortInstr b = .unknown b) := by
  unfold shortInstr
  split_ifs with handshake start
  · exact .inl ⟨handshake, rfl⟩
  · exact .inr (.inl ⟨start, rfl⟩)
  · exact .inr (.inr ⟨handshake, start, rfl⟩)

@[simp] theorem wireOf_shortInstr (b : Byte) : wireOf (shortInstr b) = some .command := by
  rcases shortInstr_cases b with ⟨-, h⟩ | ⟨-, h⟩ | ⟨-, -, h⟩ <;> rw [h] <;> rfl

@[simp] theorem setParts_shortInstr (b : Byte) : setParts (shortInstr b) = none := by
  rcases shortInstr_cases b with ⟨-, h⟩ | ⟨-, h⟩ | ⟨-, -, h⟩ <;> rw [h] <;> rfl

@[simp] theorem encode_shortInstr (b : Byte) : encode (shortInstr b) = [sentinel, b] := by
  rcases shortInstr_cases b with ⟨rfl, h⟩ | ⟨rfl, h⟩ | ⟨-, -, h⟩ <;> rw [h] <;> rfl

theorem unknownSelector_iff {b : Byte} : unknownSelector b = true ↔ selectorOf b = none ∧ b ≠ 0x23 ∧ b ≠ 0x21 := by
  simp [unknownSelector, and_assoc]

theorem shortInstr_wf {b : Byte} (no_argument : selectorOf b = none) : (shortInstr b).wf = true := by
  rcases shortInstr_cases b with ⟨-, h⟩ | ⟨-, h⟩ | ⟨no_handshake, no_start, h⟩ <;> rw [h]
  · rfl
  · rfl
  · exact unknownSelector_iff.mpr ⟨no_argument, no_handshake, no_start⟩

/-! ### The command channel -/

/-- The messages of the command channel: a set command with an argument the parser can have read (R92), or a selector that
opens no argument (R98, R103). -/
inductive IsCommand : Instr → Prop
  | set (c : Selector) (a : Arg) (read : a.wf = true) : IsCommand (setInstr c a)
  | short (b : Byte) (no_argument : selectorOf b = none) : IsCommand (shortInstr b)

theorem isCommand_iff {i : Instr} : IsCommand i ↔ i.wf = true ∧ wireOf i = some .command := by
  constructor
  · rintro (⟨c, a, read⟩ | ⟨b, no_argument⟩)
    · exact ⟨(setInstr_wf c a).trans read, wireOf_setInstr c a⟩
    · exact ⟨shortInstr_wf no_argument, wireOf_shortInstr b⟩
  · rintro ⟨wf, wire⟩
    cases i with
    | handshake => exact .short 0x23 rfl
    | start => exact .short 0x21 rfl
    | unknown b =>
      obtain ⟨no_argument, no_handshake, no_start⟩ := unknownSelector_iff.mp wf
      have same : shortInstr b = .unknown b := by rw [shortInstr, if_neg no_handshake, if_neg no_start]
      exact same ▸ .short b no_argument
    | setX a => exact .set .x a wf
    | setY a => exact .set .y a wf
    | setP a => exact .set .p a wf
    | setB a => exact .set .b a wf
    | setS a => exact .set .s a wf
    | setR a => exact .set .r a wf
    | setV a => exact .set .v a wf
    | _ => exact nomatch wire

theorem decodeCommand_set {b : Byte} {c : Selector} (rest : List Byte) (opens : selectorOf b = some c) :
    decodeCommand (sentinel :: b :: rest) = decodeArg c 0 0 rest := by
  simp [decodeCommand, opens]

theorem decodeCommand_short {b : Byte} (rest : List Byte) (no_argument : selectorOf b = none) :
    decodeCommand (sentinel :: b :: rest) = .ok (shortInstr b, rest) := by
  simp [decodeCommand, no_argument]

/-- Accepted bytes have the sentinel and a selector (R91). -/
theorem decodeCommand_framed {bytes rest : List Byte} {i : Instr} (h : decodeCommand bytes = .ok (i, rest)) :
    ∃ b tail, bytes = sentinel :: b :: tail := by
  cases bytes with
  | nil => nomatch h
  | cons b tail =>
    by_cases framed : b = sentinel
    · subst framed
      cases tail with
      | nil => simp [decodeCommand] at h
      | cons sel tail => exact ⟨sel, tail, rfl⟩
    · simp [decodeCommand, framed] at h

/-- What the command decoder accepts, and as what: the encodings of the channel's messages, each as itself. -/
theorem decodeCommand_eq_ok {bytes rest : List Byte} {i : Instr} :
    decodeCommand bytes = .ok (i, rest) ↔ IsCommand i ∧ bytes = encode i ++ rest := by
  constructor
  · intro h
    obtain ⟨b, tail, rfl⟩ := decodeCommand_framed h
    cases hb : selectorOf b with
    | some c =>
      obtain ⟨a, read, rfl, same⟩ :=
        decodeArg_eq_ok (Nat.zero_le 5) Nat.one_pos ((decodeCommand_set tail hb).symm.trans h)
      rw [encodeDigits_zero, List.nil_append] at same
      exact ⟨.set c a read, by rw [encode_setInstr, encodeSet_append, ← same, selectorOf_eq_some.mp hb]⟩
    | none =>
      cases (decodeCommand_short tail hb).symm.trans h
      exact ⟨.short b hb, by rw [encode_shortInstr]; rfl⟩
  · rintro ⟨⟨c, a, read⟩ | ⟨b, no_argument⟩, rfl⟩
    · obtain ⟨room, fits, ends⟩ := Arg.wf_iff.mp read
      calc decodeCommand (encode (setInstr c a) ++ rest)
        _ = decodeArg c 0 0 (encodeDigits a.nd a.acc ++ a.term :: rest) := by
          rw [encode_setInstr, encodeSet_append, decodeCommand_set _ (selectorOf_eq_some.mpr rfl)]
        _ = decodeArg c a.nd a.acc (a.term :: rest) := decodeArg_encodeDigits c a.nd _ room fits
        _ = .ok (setInstr c a, rest) := decodeArg_ends c a.acc rest ends
    · rw [encode_shortInstr]
      exact decodeCommand_short rest no_argument

/-! ### The payload and the replies -/

theorem decodePayload_append {bytes : List Byte} (rest : List Byte) (some_bytes : 1 ≤ bytes.length) :
    decodePayload bytes.length (bytes ++ rest) = .ok (.payload bytes, rest) := by
  have not_empty : bytes.length ≠ 0 := by omega
  simp [decodePayload, not_empty]

/-- A reply is the sentinel and its own selector byte (R99). -/
theorem encode_reply {i : Instr} (h : wireOf i = some .reply) : ∃ b, encode i = [sentinel, b] ∧ replyOf b = .ok i := by
  cases i with
  | hsAck | ack | nak | lineReady | err => exact ⟨_, rfl, rfl⟩
  | _ => exact nomatch h

theorem decodeReply_encode {i : Instr} (rest : List Byte) (h : wireOf i = some .reply) :
    decodeReply (encode i ++ rest) = .ok (i, rest) := by
  obtain ⟨b, bytes, same⟩ := encode_reply h
  rw [bytes]
  simp [decodeReply, same]

/-! ### The statements -/

/-- Settles O1, stream by stream: the decoder's inversion for the commands, position for the payload, the reply's own
selector for the replies. -/
theorem decodeInvertsEncode : Obligations.DecodeInvertsEncode := by
  intro i w rest wf wire
  cases w with
  | command => exact decodeCommand_eq_ok.mpr ⟨isCommand_iff.mpr ⟨wf, wire⟩, rfl⟩
  | payload n =>
    cases i with
    | payload bytes =>
      cases wire
      simp only [Instr.wf, Bool.and_eq_true, decide_eq_true_eq] at wf
      exact decodePayload_append rest wf.1
    | _ => exact nomatch wire
  | reply => exact decodeReply_encode rest wire

/-- Settles O2: the other direction of the decoder's inversion. -/
theorem acceptedBytesAreTheEncoding : Obligations.AcceptedBytesAreTheEncoding := by
  intro bytes rest i h
  obtain ⟨command, same⟩ := decodeCommand_eq_ok.mp h
  obtain ⟨wf, wire⟩ := isCommand_iff.mp command
  exact ⟨wf, wire, same⟩

/-- Settles O3: closed facts, each by running the decoder. -/
theorem writtenWordsDecode : Obligations.WrittenWordsDecode := by
  unfold Obligations.WrittenWordsDecode
  decide

end Sys2Proof

/-! SUPPORT. A prescribed turn (log 3) as the meaning of what is due: FOREGROUND's as the parser (R192 to R194), byte by byte
through a whole message, and with a task pending; STEP_TIMER's with an event enabled. With the statements O4, O5, O6, O9 and
O10, which rest on them. -/

namespace Sys2Proof.Machine

/-! ### Prescribed turns -/

/-- The prescribed turn is taken and used up (log 3). -/
theorem step_of_turns {t : Turn} {ts : List Turn} {s : State} (h : s.turns = t :: ts) :
    step s = takeTurn t { s with turns := ts } := by
  simp [step_eq, nextTurn, afterChoice, h]

theorem foregroundRun_succ_of_next {n : Nat} {s t : State} (h : stepAs .foreground s = .next t) :
    foregroundRun (n + 1) s = foregroundRun n t := by
  rw [foregroundRun, h, andThen_next]

theorem foregroundRun_one (s : State) : foregroundRun 1 s = stepAs .foreground s := by
  rw [foregroundRun]
  cases stepAs .foreground s <;> rfl

/-- `m` steps of FOREGROUND and then `n` more. -/
theorem foregroundRun_add (m n : Nat) (s : State) :
    foregroundRun (m + n) s = andThen (foregroundRun m s) (foregroundRun n) := by
  induction m generalizing s with
  | zero =>
    rw [Nat.zero_add]
    rfl
  | succ m ih =>
    rw [Nat.succ_add, foregroundRun, foregroundRun, andThen_assoc]
    exact congrArg (andThen (stepAs .foreground s)) (funext ih)

/-! ### What the parser does with a byte -/

/-- FOREGROUND is the command parser: nothing is pending and no job runs (R190). -/
structure IsParser (s : State) : Prop where
  nothing_pending : s.agenda = []
  no_job : s.job.phase = .none

theorem foregroundStep_parses {s : State} {b : Byte} {rest : List Byte} (h : IsParser s) (oldest : s.rx = b :: rest) :
    foregroundStep s = parseByte b { s with rx := rest } := by
  have parses : foregroundStep s = rxRead parseByte s := by
    unfold foregroundStep sequencerStep
    rw [h.nothing_pending, h.no_job]
  exact parses.trans (rxRead_cons oldest)

section Parse

variable {s : State} {b : Byte}

theorem parseByte_sentinel (scanning : s.ps.state = .awaitSentinel) :
    parseByte sentinel s = .next { s with ps := { s.ps with state := .awaitSelector } } := by
  unfold parseByte
  rw [scanning]
  exact if_pos rfl

theorem parseByte_selector {c : Selector} (selecting : s.ps.state = .awaitSelector) (opens : selectorOf b = some c) :
    parseByte b s = .next { s with ps := { state := .readArg, cmd := c, acc := 0, nd := 0 } } := by
  simp [parseByte, selecting, opens]

theorem parseByte_short (selecting : s.ps.state = .awaitSelector) (no_argument : selectorOf b = none) :
    parseByte b s = exec (shortInstr b) s := by
  simp [parseByte, selecting, no_argument]

theorem parseByte_digit (reading : s.ps.state = .readArg) (more : extendsArg s.ps.nd b = true) :
    parseByte b s = .next { s with ps := { s.ps with acc := s.ps.acc * 10 + digitValue b, nd := s.ps.nd + 1 } } := by
  simp [parseByte, reading, more]

theorem parseByte_ends (ends : EndsArgument b s) :
    parseByte b s = exec (setInstr s.ps.cmd (readArgument b s)) s :=
  (parseByte_of_endsArgument ends).trans (exec_setInstr ..).symm

end Parse

/-- The byte after the sentinel, when it opens no argument, is the last of its message (R193). -/
theorem foregroundStep_short {s : State} {b : Byte} {rest : List Byte} (h : IsParser s) (oldest : s.rx = b :: rest)
    (selecting : s.ps.state = .awaitSelector) (no_argument : selectorOf b = none) :
    foregroundStep s = exec (shortInstr b) { s with rx := rest } :=
  (foregroundStep_parses h oldest).trans (parseByte_short selecting no_argument)

/-- The byte that ends an argument is the last of its message (R194). -/
theorem foregroundStep_ends {s : State} {b : Byte} {rest : List Byte} (h : IsParser s) (oldest : s.rx = b :: rest)
    (ends : EndsArgument b s) :
    foregroundStep s = exec (setInstr s.ps.cmd (readArgument b s)) { s with rx := rest } :=
  (foregroundStep_parses h oldest).trans (parseByte_ends (s := { s with rx := rest }) ends)

theorem extendsArg_eq_false_iff {nd : Nat} {b : Byte} : extendsArg nd b = false ↔ isDigit b = false ∨ 5 ≤ nd := by
  rw [← Bool.not_eq_true, extendsArg_iff, not_and_or, Bool.not_eq_true, Nat.not_lt]

/-! ### The parser with bytes waiting -/

/-- `s` with this parser and these bytes in the receive stream. -/
def atInput (p : Parser) (bytes : List Byte) (s : State) : State := { s with ps := p, rx := bytes }

theorem atInput_self {s : State} {bytes : List Byte} (waiting : s.rx = bytes) : atInput s.ps bytes s = s := by
  rw [← waiting]
  rfl

section Input

variable {s : State} {p : Parser} {c : Selector} {b : Byte} {rest : List Byte}

theorem stepAs_atInput (h : IsParser s) :
    stepAs .foreground (atInput p (b :: rest) s) = parseByte b (atInput p rest s) :=
  (stepAs_eq_takeTurn .foreground _).trans
    (foregroundStep_parses (s := atInput p (b :: rest) s) ⟨h.nothing_pending, h.no_job⟩ rfl)

theorem stepAs_sentinel (h : IsParser s) (scanning : p.state = .awaitSentinel) :
    stepAs .foreground (atInput p (sentinel :: rest) s) =
      .next (atInput { p with state := .awaitSelector } rest s) :=
  (stepAs_atInput h).trans (parseByte_sentinel scanning)

theorem stepAs_selector (h : IsParser s) (selecting : p.state = .awaitSelector) :
    stepAs .foreground (atInput p (selectorByte c :: rest) s) =
      .next (atInput { state := .readArg, cmd := c, acc := 0, nd := 0 } rest s) :=
  (stepAs_atInput h).trans (parseByte_selector selecting (selectorOf_eq_some.mpr rfl))

theorem stepAs_digit (h : IsParser s) (reading : p.state = .readArg) (more : extendsArg p.nd b = true) :
    stepAs .foreground (atInput p (b :: rest) s) =
      .next (atInput { p with acc := p.acc * 10 + digitValue b, nd := p.nd + 1 } rest s) :=
  (stepAs_atInput h).trans (parseByte_digit reading more)

/-- FOREGROUND goes through the digits of a value as the decoder does (`decodeArg_encodeDigits`). -/
theorem foregroundRun_encodeDigits (h : IsParser s) (n : Nat) {v : Nat} (room : n ≤ 5) (fits : v < 10 ^ n) :
    foregroundRun n
        (atInput { state := .readArg, cmd := c, acc := 0, nd := 0 } (encodeDigits n v ++ rest) s) =
      .next (atInput { state := .readArg, cmd := c, acc := v, nd := n } rest s) := by
  induction n generalizing v rest with
  | zero =>
    obtain rfl : v = 0 := Nat.lt_one_iff.mp fits
    rfl
  | succ n ih =>
    have high : v / 10 < 10 ^ n := div_ten_lt_pow fits
    have low : v % 10 < 10 := Nat.mod_lt v (by decide)
    rw [encodeDigits_succ, List.append_assoc, List.singleton_append, foregroundRun_add,
      ih (Nat.le_of_succ_le room) high, andThen_next, foregroundRun_one,
      stepAs_digit (p := ⟨.readArg, c, v / 10, n⟩) h rfl (extendsArg_digitByte room low),
      digitValue_digitByte low, Nat.div_add_mod']

end Input

/-! ### A message -/

/-- The parser before the last byte of a message that it has read from `p` on. -/
def parserAt (i : Instr) (p : Parser) : Parser :=
  match setParts i with
  | some (c, a) => { state := .readArg, cmd := c, acc := a.acc, nd := a.nd }
  | none => { p with state := .awaitSelector }

theorem parserAt_of_setParts {i : Instr} {c : Selector} {a : Arg} {p : Parser} (h : setParts i = some (c, a)) :
    parserAt i p = { state := .readArg, cmd := c, acc := a.acc, nd := a.nd } := by
  rw [parserAt, h]

theorem parserAt_of_no_setParts {i : Instr} {p : Parser} (h : setParts i = none) :
    parserAt i p = { p with state := .awaitSelector } := by
  rw [parserAt, h]

/-- The last byte of a message. -/
def lastByte (i : Instr) : Byte := (encode i).getLastD 0

section Set

variable (c : Selector) (a : Arg) (p : Parser)

@[simp] theorem parserAt_setInstr :
    parserAt (setInstr c a) p = { state := .readArg, cmd := c, acc := a.acc, nd := a.nd } :=
  parserAt_of_setParts (setParts_setInstr c a)

@[simp] theorem lastByte_setInstr : lastByte (setInstr c a) = a.term := by
  rw [lastByte, encode_setInstr, encodeSet, List.getLastD_concat]

end Set

section Short

variable (b : Byte) (p : Parser)

@[simp] theorem parserAt_shortInstr : parserAt (shortInstr b) p = { p with state := .awaitSelector } :=
  parserAt_of_no_setParts (setParts_shortInstr b)

@[simp] theorem lastByte_shortInstr : lastByte (shortInstr b) = b := by
  rw [lastByte, encode_shortInstr]
  rfl

end Short

section Message

variable {i : Instr} {s : State} {p : Parser} {rest : List Byte}

/-- With its last byte a message is executed (R193, R194). -/
theorem parseByte_lastByte (command : IsCommand i) :
    parseByte (lastByte i) (atInput (parserAt i p) rest s) = exec i (atInput (parserAt i p) rest s) := by
  cases command with
  | set c a read =>
    obtain ⟨-, -, ends⟩ := Arg.wf_iff.mp read
    rw [lastByte_setInstr, parserAt_setInstr]
    exact parseByte_ends ⟨rfl, ends⟩
  | short b no_argument =>
    rw [lastByte_shortInstr, parserAt_shortInstr]
    exact parseByte_short rfl no_argument

/-- FOREGROUND goes through the bytes of a message but the last (R192 to R194). -/
theorem foregroundRun_message (command : IsCommand i) (h : IsParser s) (scanning : p.state = .awaitSentinel) :
    foregroundRun ((encode i).length - 1) (atInput p (encode i ++ rest) s) =
      .next (atInput (parserAt i p) (lastByte i :: rest) s) := by
  cases command with
  | set c a read =>
    obtain ⟨room, fits, -⟩ := Arg.wf_iff.mp read
    have but_last : (encode (setInstr c a)).length - 1 = a.nd + 1 + 1 := by
      simp [encodeSet]
    rw [but_last, encode_setInstr, encodeSet_append, foregroundRun_succ_of_next (stepAs_sentinel h scanning),
      foregroundRun_succ_of_next (stepAs_selector h rfl), foregroundRun_encodeDigits h a.nd room fits,
      parserAt_setInstr, lastByte_setInstr]
  | short b _ =>
    rw [encode_shortInstr, parserAt_shortInstr, lastByte_shortInstr]
    exact (foregroundRun_one _).trans (stepAs_sentinel h scanning)

/-- A message placed for its last byte (log 7) is what the parser has before that byte. -/
theorem atLastByte_eq (command : IsCommand i) :
    atLastByte i rest s = atInput (parserAt i s.ps) (lastByte i :: rest) s := by
  cases command with
  | set c a _ =>
    rw [atLastByte, setParts_setInstr, parserAt_setInstr, lastByte_setInstr]
    rfl
  | short b _ =>
    rw [atLastByte, setParts_shortInstr, encode_shortInstr, parserAt_shortInstr, lastByte_shortInstr]
    rfl

end Message

/-! ### A table word -/

/-- Past its 16 bits a table word is zero (R107). -/
theorem tableWordBytes_high {v j : Nat} (h : v < 2 ^ 16) (high : 1 ≤ j) : tableWordBytes v j = [0, 0] := by
  have shifted_out {k : Nat} (hk : 16 ≤ k) : v >>> k = 0 := by
    rw [Nat.shiftRight_eq_div_pow]
    exact Nat.div_eq_of_lt (h.trans_le (Nat.pow_le_pow_right (by decide) hk))
  rw [tableWordBytes, shifted_out (by omega), shifted_out (by omega)]
  rfl

theorem drop_two_tableBytes (w : Nat) : (tableBytes 16 w).drop 2 = List.replicate 6 0 := by
  have low : w % 2 ^ 16 < 2 ^ 16 := Nat.mod_lt w (by decide)
  unfold tableBytes
  dsimp only
  rw [tableWordBytes_high low (by decide : 1 ≤ 1), tableWordBytes_high low (by decide : 1 ≤ 2),
    tableWordBytes_high low (by decide : 1 ≤ 3)]
  rfl

theorem two_le_length_encode {i : Instr} (command : IsCommand i) : 2 ≤ (encode i).length := by
  cases command with
  | set c a _ => simp [encodeSet]
  | short b _ => simp

/-- The bytes after the message of a table word are those beyond the word, or what its argument left of them. -/
theorem zero_of_mem_rest {i : Instr} {w : Nat} {rest : List Byte} (command : IsCommand i)
    (same : tableBytes 16 w = encode i ++ rest) {b : Byte} (hb : b ∈ rest) : b = 0 := by
  have beyond : (encode i).drop 2 ++ rest = List.replicate 6 0 := by
    rw [← drop_two_tableBytes w, same, List.drop_append_of_le_length (two_le_length_encode command)]
  exact List.eq_of_mem_replicate (beyond ▸ List.mem_append_right _ hb)

theorem decodeTableWord_eq_some {nbits w : Nat} {i : Instr} (h : decodeTableWord nbits w = some i) :
    ∃ rest, decodeCommand (tableBytes nbits w) = .ok (i, rest) := by
  unfold decodeTableWord at h
  split at h
  · next rest read =>
    cases h
    exact ⟨rest, read⟩
  · nomatch h

/-- `s` with no job and no operation in progress, as `parserTurn` leaves it. -/
def outsideJob (s : State) : State := { s with agenda := [], job := { s.job with phase := .none } }

/-! ### A pending task and an enabled event -/

section Due

variable {s : State}

/-- FOREGROUND does the next task, and goes on unless a move is active then. -/
theorem foregroundStep_task {t : Task} {rest : List Task} (next : s.agenda = t :: rest) (no_line : t ≠ .lineRead) :
    foregroundStep s =
      andThen (runTask t { s with agenda := rest }) fun u => if u.running then .next u else resume rest u := by
  rw [foregroundStep_cons next no_line, resume_cons]
  simp only [no_line, decide_false, Bool.or_false]

theorem foregroundStep_wait_running {rest : List Task} (next : s.agenda = .wait :: rest) (moving : s.running = true) :
    foregroundStep s = exec .waitDone { s with agenda := rest } := by
  have holds := exec_waitDone_running (s := { s with agenda := rest }) moving
  rw [foregroundStep_task next nofun]
  change andThen (exec .waitDone { s with agenda := rest }) _ = _
  rw [holds, andThen_next]
  exact if_pos moving

/-- A task that leaves no move active is followed at once by what is pending after it. -/
theorem foregroundStep_task_idle {t : Task} {rest : List Task} {u : State} (next : s.agenda = t :: rest)
    (no_line : t ≠ .lineRead) (done : runTask t { s with agenda := rest } = .next u) (idle : u.running = false) :
    foregroundStep s = andThen (runTask t { s with agenda := rest }) (resume rest) := by
  rw [foregroundStep_task next no_line, done, andThen_next, andThen_next, idle]
  exact if_neg Bool.false_ne_true

theorem exec_laserDisable_idle (idle : s.running = false) : exec .laserDisable s = .next (setOutput false s) :=
  writeOutput_next.mpr ⟨idle, rfl⟩

theorem timerStep_pulseStart (runs : s.tmr.run = true) (due : s.tmr.next = .pulseStart) :
    timerStep s = exec .pulseStart s := by
  rw [timerStep, if_pos runs, due]

theorem timerStep_pulseEndNormal (runs : s.tmr.run = true) (due : s.tmr.next = .pulseEnd) (in_mode : s.mc.mode = .normal) :
    timerStep s = exec .pulseEndNormal s := by
  rw [timerStep, if_pos runs, due, in_mode]

theorem timerStep_pulseEndFromTable (runs : s.tmr.run = true) (due : s.tmr.next = .pulseEnd)
    (in_mode : s.mc.mode = .fromTable) : timerStep s = exec .pulseEndFromTable s := by
  rw [timerStep, if_pos runs, due, in_mode]

theorem timerStep_pulseEndRaster (runs : s.tmr.run = true) (due : s.tmr.next = .pulseEnd) (in_mode : s.mc.mode = .raster) :
    timerStep s = exec .pulseEndRaster s := by
  rw [timerStep, if_pos runs, due, in_mode]

end Due

/-! ### The statements -/

/-- Settles O4: the decoder reads a message of the command channel, and the parser goes through its bytes. -/
theorem parserExecutesWhatTheDecoderReads : Obligations.ParserExecutesWhatTheDecoderReads := by
  intro s i bytes rest nothing_pending no_job scanning waiting read
  obtain ⟨command, rfl⟩ := decodeCommand_eq_ok.mp read
  have parser : IsParser s := ⟨nothing_pending, no_job⟩
  have run := foregroundRun_message (rest := rest) command parser scanning
  rw [atInput_self waiting] at run
  exact ⟨lastByte i, parserAt i s.ps, fun _ _ => parserAt_of_setParts, parserAt_of_no_setParts, run,
    (stepAs_atInput parser).trans (parseByte_lastByte command)⟩

/-- Settles O6: the placed state is that of the parser before the last byte of the word's message. -/
theorem placedWordIsExecuted : Obligations.PlacedWordIsExecuted := by
  intro s w i read
  obtain ⟨rest, read⟩ := decodeTableWord_eq_some read
  obtain ⟨command, same⟩ := decodeCommand_eq_ok.mp read
  refine ⟨parserAt i s.ps, rest, fun _ => zero_of_mem_rest command same, fun _ _ => parserAt_of_setParts,
    parserAt_of_no_setParts, ?_⟩
  have placed : s.withFetchWord 16 w = parserTurn (atInput (parserAt i s.ps) (lastByte i :: rest) s) := by
    rw [State.withFetchWord, placeMessage, read, ← atLastByte_eq command]
  have parser : IsParser (outsideJob s) := ⟨rfl, rfl⟩
  calc step (s.withFetchWord 16 w)
    _ = stepAs .foreground (atInput (parserAt i s.ps) (lastByte i :: rest) (outsideJob s)) := congrArg step placed
    _ = parseByte (lastByte i) (atInput (parserAt i s.ps) rest (outsideJob s)) := stepAs_atInput parser
    _ = exec i (atInput (parserAt i s.ps) rest (outsideJob s)) := parseByte_lastByte command

/-- Settles O5: a prescribed turn of the parser, of STEP_TIMER, and of FOREGROUND with a task pending. -/
theorem stepRunsTheInstruction : Obligations.StepRunsTheInstruction := by
  refine ⟨fun s b rest ts turn nothing_pending no_job oldest => ?message, fun s ts turn runs => ?event,
    fun s rest ts turn => ?task⟩ <;> rw [step_of_turns turn]
  case message =>
    have parser : IsParser { s with turns := ts } := ⟨nothing_pending, no_job⟩
    exact ⟨foregroundStep_short parser oldest, fun reading ends =>
      foregroundStep_ends parser oldest ⟨reading, extendsArg_eq_false_iff.mpr ends⟩⟩
  case event =>
    have runs : ({ s with turns := ts } : State).tmr.run = true := runs
    exact ⟨timerStep_pulseStart runs, timerStep_pulseEndNormal runs, timerStep_pulseEndFromTable runs,
      timerStep_pulseEndRaster runs⟩
  case task =>
    refine ⟨foregroundStep_wait_running (s := { s with turns := ts }), fun next idle => ?_, fun next idle => ?_⟩
    · exact foregroundStep_task_idle (s := { s with turns := ts }) next nofun (exec_waitDone_idle idle) idle
    · exact foregroundStep_task_idle (s := { s with turns := ts }) next nofun (exec_laserDisable_idle idle) idle

/-- Settles O9: an argument without a digit, or not ended by the delimiter, carries no value. -/
theorem malformedArgumentIsAnsweredErr : Obligations.MalformedArgumentIsAnsweredErr := by
  intro c a s malformed
  have no_value : a.valid = false := by
    rw [← Bool.not_eq_true, Arg.valid, Bool.and_eq_true, decide_eq_true_eq, decide_eq_true_eq, not_and_or, Nat.not_le,
      Nat.lt_one_iff]
    exact malformed
  rw [exec_setInstr, setCommand, no_value]
  rfl

/-- Settles O10: the digit extends the argument. -/
theorem digitJoinsTheArgument : Obligations.DigitJoinsTheArgument := by
  intro s b rest nothing_pending no_job reading oldest low high room
  have digit : isDigit b = true := Bool.and_eq_true_iff.mpr ⟨decide_eq_true low, decide_eq_true high⟩
  have joins := stepAs_digit (rest := rest) ⟨nothing_pending, no_job⟩ reading (extendsArg_iff.mpr ⟨digit, room⟩)
  rwa [atInput_self oldest] at joins

end Sys2Proof.Machine

/-! SUPPORT. FOREGROUND in phase READ_LINE of a job (R233, R237): one byte of the line a step. With the statement O45. -/

namespace Sys2Proof.Machine

/-- A job is in phase READ_LINE with just the bytes `bytes` of its line to come, all of them waiting before `rest`. -/
structure LineAhead (bytes rest : List Byte) (s : State) : Prop where
  nothing_pending : s.agenda = []
  in_phase : s.job.phase = .readLine
  idle : s.running = false
  fits : s.jp.outWidth ≤ s.cfg.scanCap
  whole : s.job.col.toNat + bytes.length = s.jp.outWidth.toNat
  waiting : s.rx = bytes ++ rest

/-- The oldest byte stored in the next element of the line, with `rest` still waiting (R233). -/
def byteStored (b : Byte) (rest : List Byte) (s : State) : State :=
  { s with
    scan := s.scan.write s.job.col.toNat b
    rx := rest
    job := { s.job with col := s.job.col + 1 } }

section Line

variable {b : Byte} {bytes rest : List Byte} {s : State}

theorem LineAhead.col_lt (h : LineAhead (b :: bytes) rest s) : s.job.col < s.jp.outWidth := by
  have whole := h.whole
  rw [List.length_cons] at whole
  rw [BitVec.lt_def]
  omega

theorem readByte_eq (idle : s.running = false) (inside : s.job.col.toNat < s.cfg.scanCap.toNat)
    (oldest : s.rx = b :: rest) : readByte s = .next (byteStored b rest s) := by
  rw [readByte, oldest]
  dsimp only
  rw [exec_payload, storeLine_eq (bytes := [b]) idle inside]
  rfl

theorem stepAs_readLine (h : LineAhead (b :: bytes) rest s) :
    stepAs .foreground s = .next (byteStored b (bytes ++ rest) s) := by
  have wanted : lineWanted s = true := decide_eq_true h.col_lt
  have inside : s.job.col.toNat < s.cfg.scanCap.toNat :=
    (BitVec.lt_def.mp h.col_lt).trans_le (BitVec.le_def.mp h.fits)
  have reads : foregroundStep s = if lineWanted s then readByte s else beginScanline s := by
    unfold foregroundStep sequencerStep
    rw [h.nothing_pending, h.in_phase]
  calc stepAs .foreground s
    _ = foregroundStep s := stepAs_eq_takeTurn .foreground s
    _ = readByte s := reads.trans (if_pos wanted)
    _ = .next (byteStored b (bytes ++ rest) s) := readByte_eq h.idle inside h.waiting

theorem LineAhead.col_succ_toNat (h : LineAhead (b :: bytes) rest s) : (s.job.col + 1).toNat = s.job.col.toNat + 1 := by
  have below := h.col_lt
  bv_omega

theorem LineAhead.next (h : LineAhead (b :: bytes) rest s) : LineAhead bytes rest (byteStored b (bytes ++ rest) s) where
  nothing_pending := h.nothing_pending
  in_phase := h.in_phase
  idle := h.idle
  fits := h.fits
  whole := by
    change (s.job.col + 1).toNat + bytes.length = s.jp.outWidth.toNat
    rw [h.col_succ_toNat, ← h.whole, List.length_cons]
    omega
  waiting := rfl

/-- Reading the rest of a line stores it from the column on, takes it from the receive stream and does nothing else. -/
theorem foregroundRun_readLine (h : LineAhead bytes rest s) :
    foregroundRun bytes.length s =
      .next { s with
        scan := s.scan.writeFrom s.job.col.toNat bytes
        rx := rest
        job := { s.job with col := s.jp.outWidth } } := by
  induction bytes generalizing s with
  | nil =>
    have at_end : s.jp.outWidth = s.job.col := BitVec.eq_of_toNat_eq h.whole.symm
    rw [at_end, ← show s.rx = rest from h.waiting]
    rfl
  | cons b bytes ih =>
    rw [List.length_cons, foregroundRun_succ_of_next (stepAs_readLine h), ih h.next]
    simp only [byteStored, h.col_succ_toNat, Memory.writeFrom]

end Line

/-- Settles O45: the line is stored by `Memory.writeFrom` from element 0 on. -/
theorem readLineConsumesExactlyTheLine : Obligations.ReadLineConsumesExactlyTheLine := by
  intro s bytes rest nothing_pending in_phase col_zero idle fits waiting length_eq
  have whole : s.job.col.toNat + bytes.length = s.jp.outWidth.toNat := by
    rw [col_zero, length_eq]
    exact Nat.zero_add _
  have run := foregroundRun_readLine ⟨nothing_pending, in_phase, idle, fits, whole, waiting⟩
  rw [length_eq, col_zero] at run
  refine ⟨_, run, fun i inside => ?_, fun i outside => ?_, rfl⟩
  · rw [← Memory.read_writeFrom_inside (m := s.scan) (i := 0) inside, Nat.zero_add]
    rfl
  · exact Memory.read_writeFrom_outside (.inr ((Nat.zero_add _).trans_le outside))

end Sys2Proof.Machine

/-! SUPPORT. The interrupt events (R120 to R132), each enabled and not enabled, with the dispatch of its mode; and how a move
is armed (R123). With the statements O21 to O24, O26, O27, O30 and O38. -/

namespace Sys2Proof.Machine

/-! ### Events that are not enabled -/

theorem eventEnabled_eq_false {e other : TimerEvent} {s : State} (h : s.tmr.run = false ∨ s.tmr.next = other)
    (differs : other ≠ e) : eventEnabled e s = false := by
  rcases h with stopped | next
  · simp [eventEnabled, stopped]
  · simp [eventEnabled, next, differs]

theorem exec_pulseStart_disabled {s : State} (h : eventEnabled .pulseStart s = false) :
    exec .pulseStart s = .next s := by
  change execPulseStart s = .next s
  simp [execPulseStart, h]

theorem pulseEndIn_disabled {mode : ModeReg} {dispatch : State → Result} {s : State}
    (h : eventEnabled .pulseEnd s = false) : pulseEndIn mode dispatch s = .next s := by
  simp [pulseEndIn, h]

theorem timerStep_stopped {s : State} (stopped : s.tmr.run = false) : timerStep s = .next s := by
  simp [timerStep, stopped]

/-- Settles O27: a stopped timer enables no event, and a running one enables the next event only. -/
theorem onlyEnabledEventsOccur : Obligations.OnlyEnabledEventsOccur := by
  intro s
  refine ⟨timerStep_stopped, fun h => ?_, fun h => ?_⟩
  · have disabled : eventEnabled .pulseStart s = false := eventEnabled_eq_false h nofun
    exact exec_pulseStart_disabled disabled
  · have disabled : eventEnabled .pulseEnd s = false := eventEnabled_eq_false h nofun
    exact ⟨pulseEndIn_disabled disabled, pulseEndIn_disabled disabled, pulseEndIn_disabled disabled⟩

/-! ### Enabled events -/

/-- What the pulse-end event dispatches to in each mode (R129 to R132). -/
def modeDispatch : ModeReg → State → Result
  | .normal => dispatchNormal
  | .fromTable => dispatchFromTable
  | .raster => dispatchRaster
  | .reserved => dispatchReserved

section Enabled

variable {s : State}

theorem exec_pulseStart_enabled (runs : s.tmr.run = true) (due : s.tmr.next = .pulseStart) :
    exec .pulseStart s = .next (pulseStartEvent s) :=
  if_pos (eventEnabled_iff.mpr ⟨runs, due⟩)

/-- STEP_TIMER's turn with the pulse-start event enabled (R122, R124). -/
theorem timerStep_startsPulse (runs : s.tmr.run = true) (due : s.tmr.next = .pulseStart) :
    timerStep s = .next (pulseStartEvent s) :=
  (timerStep_pulseStart runs due).trans (exec_pulseStart_enabled runs due)

/-- STEP_TIMER's turn with the pulse-end event enabled is the event of the mode in `mc.mode` (R122, R125). -/
theorem timerStep_endsPulse (runs : s.tmr.run = true) (due : s.tmr.next = .pulseEnd) :
    timerStep s = pulseEndEvent (modeDispatch s.mc.mode) s := by
  cases in_mode : s.mc.mode with
  | normal => exact (timerStep_pulseEndNormal runs due in_mode).trans (pulseEndIn_enabled runs due in_mode)
  | fromTable => exact (timerStep_pulseEndFromTable runs due in_mode).trans (pulseEndIn_enabled runs due in_mode)
  | raster => exact (timerStep_pulseEndRaster runs due in_mode).trans (pulseEndIn_enabled runs due in_mode)
  | reserved =>
    have reserved : timerStep s = pulseEndReserved s := by
      rw [timerStep, if_pos runs, due, in_mode]
    exact reserved.trans (pulseEndIn_enabled runs due in_mode)

theorem exec_pulseEndNormal (runs : s.tmr.run = true) (due : s.tmr.next = .pulseEnd) (in_mode : s.mc.mode = .normal) :
    exec .pulseEndNormal s = pulseEndEvent dispatchNormal s :=
  pulseEndIn_enabled runs due in_mode

theorem exec_pulseEndFromTable (runs : s.tmr.run = true) (due : s.tmr.next = .pulseEnd)
    (in_mode : s.mc.mode = .fromTable) : exec .pulseEndFromTable s = pulseEndEvent dispatchFromTable s :=
  pulseEndIn_enabled runs due in_mode

/-- Each of the three pulse-end instructions is the event that dispatches by its own mode. -/
theorem exec_pulseEnd {i : Instr} {m : ModeReg}
    (row : (i, m) ∈
      [(Instr.pulseEndNormal, ModeReg.normal), (.pulseEndFromTable, .fromTable), (.pulseEndRaster, .raster)])
    (runs : s.tmr.run = true) (due : s.tmr.next = .pulseEnd) (in_mode : s.mc.mode = m) :
    exec i s = pulseEndEvent (modeDispatch m) s := by
  simp only [List.mem_cons, Prod.mk.injEq, List.not_mem_nil, or_false] at row
  obtain ⟨rfl, rfl⟩ | ⟨rfl, rfl⟩ | ⟨rfl, rfl⟩ := row
  · exact exec_pulseEndNormal runs due in_mode
  · exact exec_pulseEndFromTable runs due in_mode
  · exact exec_pulseEndRaster runs due in_mode

end Enabled

/-- Settles O21: the event is enabled, and the intensity it records is that of R38. -/
theorem pulseStartAssertsAndRecords : Obligations.PulseStartAssertsAndRecords := by
  intro s runs due
  have intensity : laserOut s = if s.pwm.connected = true ∧ s.pwm.run = true then s.pwm.duty else 0 := by
    simp only [laserOut_eq, Bool.and_eq_true]
  rw [exec_pulseStart_enabled runs due, pulseStartEvent, intensity]

/-- Settles O22: in every mode the completing event dispatches nothing. -/
theorem pulseEndCompletesTheMove : Obligations.PulseEndCompletesTheMove := by
  intro i m s row runs due in_mode
  rw [exec_pulseEnd row runs due in_mode]
  refine ⟨fun dir last => ?_, fun dir last => ?_⟩
  · rw [pulseEndEvent_completes (.inl ⟨dir, last⟩), completed, dir]
    rfl
  · rw [pulseEndEvent_completes (.inr ⟨dir, last⟩), completed, dir]
    rfl

/-- Settles O23: the dispatch of a NORMAL move leaves the state as it is. -/
theorem pulseEndNormalOnlyCounts : Obligations.PulseEndNormalOnlyCounts := by
  intro s runs due in_mode
  rw [exec_pulseEndNormal runs due in_mode]
  refine ⟨pulseEndEvent_completes, fun index next => ?_⟩
  rw [pulseEndEvent_goesOn next]
  rfl

/-! ### The compare registers of a FROM_TABLE move -/

theorem timerProgram_short {d : U16} {s : State} (short : d ≤ s.cfg.pulseWidth) :
    timerProgram d s = .fault (.delayTooShort d s) :=
  if_pos short

theorem dispatchFromTable_entry {s : State} {d : U16} (entry : s.cfg.table[s.mc.stepIndex.toNat]? = some d) :
    dispatchFromTable s = timerProgram d s := by
  simp [dispatchFromTable, readTable, entry]

theorem dispatchFromTable_outside {s : State} (outside : s.cfg.table.length ≤ s.mc.stepIndex.toNat) :
    dispatchFromTable s = .fault (.tableRange s.mc.stepIndex.toNat s) :=
  readTable_fault.mpr (.inl ⟨outside, rfl⟩)

/-- Settles O24: the dispatch of the state with the new index finds a long entry, a short one, or none. -/
theorem pulseEndFromTableReprograms : Obligations.PulseEndFromTableReprograms := by
  intro s runs due in_mode
  rw [exec_pulseEndFromTable runs due in_mode]
  refine ⟨pulseEndEvent_completes, fun index next => ?_⟩
  rw [pulseEndEvent_goesOn next]
  refine ⟨fun d entry => ?_, fun outside => ?_⟩
  · rw [dispatchFromTable_entry (s := pulseEnded index s) entry]
    refine ⟨fun long => ?_, fun short => ?_⟩
    · rw [timerProgram_next (s := pulseEnded index s).mpr ⟨long, rfl⟩, ← runs]
      rfl
    · rw [timerProgram_short (s := pulseEnded index s) short]
      rfl
  · rw [dispatchFromTable_outside (s := pulseEnded index s) outside]
    rfl

/-- Settles O26: the event of a move that goes on dispatches to the reserved mode's fault. -/
theorem reservedModeFaults : Obligations.ReservedModeFaults := by
  intro s index runs due in_mode next
  calc stepAs .timer s
    _ = pulseEndEvent dispatchReserved s :=
      (timerStep_endsPulse runs due).trans (by rw [in_mode, modeDispatch])
    _ = .fault (.reservedMode (pulseEnded index s)) := pulseEndEvent_goesOn next

/-! ### Arming -/

section Arming

variable {mode : MoveMode} {dir : Direction} {total delay offset : U16} {s : State}

/-- Past its checks, `arm_move` populates MoveCommand and the compare registers and launches the move (R123). -/
theorem armMove_eq (idle : s.running = false) (steps : total ≠ 0) (long : s.cfg.pulseWidth < delay) :
    armMove mode dir total delay offset s = .next (launch (populate mode dir total delay offset s)) :=
  armMove_next.mpr ⟨idle, steps, long, rfl⟩

theorem armMove_rearm (moving : s.running = true) : armMove mode dir total delay offset s = .fault (.rearm s) :=
  armMove_fault.mpr (.inl ⟨moving, rfl⟩)

theorem armMove_zeroSteps (idle : s.running = false) (none : total = 0) :
    armMove mode dir total delay offset s = .fault (.zeroSteps s) :=
  armMove_fault.mpr (.inr (.inl ⟨idle, none, rfl⟩))

theorem armMove_short (idle : s.running = false) (steps : total ≠ 0) (short : delay ≤ s.cfg.pulseWidth) :
    armMove mode dir total delay offset s = .fault (.delayTooShort delay s) :=
  armMove_fault.mpr (.inr (.inr ⟨idle, steps, short, rfl⟩))

/-- A move that is waited for stops where arming it does. -/
theorem moveAndWait_fault {e : Fault} (h : armMove mode dir total delay offset s = .fault e) :
    moveAndWait mode dir total delay offset s = .fault e := by
  rw [moveAndWait, h, andThen_fault]

theorem moveAndWait_eq (idle : s.running = false) (steps : total ≠ 0) (long : s.cfg.pulseWidth < delay) :
    moveAndWait mode dir total delay offset s =
      .next (push [.wait] (launch (populate mode dir total delay offset s))) :=
  moveAndWait_next.mpr ⟨_, armMove_eq idle steps long, rfl⟩

end Arming

/-- Settles O30: the three faults and the armed state, for each mode and direction. -/
theorem armMoveStartsTheMove : Obligations.ArmMoveStartsTheMove := by
  intro mode dir total delay offset s
  refine ⟨armMove_rearm, armMove_zeroSteps, armMove_short, fun idle steps long => ?_⟩
  refine (armMove_eq idle steps long).trans ?_
  cases mode <;> cases dir <;> rfl

/-- Settles O38: the faults of `arm_move`, or its armed state with the wait before what was pending. -/
theorem flatMoveArmsAndWaits : Obligations.FlatMoveArmsAndWaits := by
  intro s n rate
  exact ⟨moveAndWait_eq, fun moving => moveAndWait_fault (armMove_rearm moving),
    fun idle none => moveAndWait_fault (armMove_zeroSteps idle none),
    fun idle steps short => moveAndWait_fault (armMove_short idle steps short)⟩

end Sys2Proof.Machine

/-! SUPPORT. A whole move (R134, R136), whatever its mode: pulse after pulse by induction, each with the compare registers
and the duty that the `Profile` of the move gives for its index. The three modes are three profiles. With the statements O32,
O33, O36 and O42. -/

namespace Sys2Proof.Machine

/-! ### Runs of STEP_TIMER -/

section Runs

variable {m n : Nat} {s u : State}

theorem timerRun_succ (n : Nat) (s : State) : timerRun (n + 1) s = andThen (timerStep s) (timerRun n) := rfl

theorem timerRun_one (s : State) : timerRun 1 s = timerStep s := by
  rw [timerRun_succ]
  cases timerStep s <;> rfl

theorem timerRun_add (m n : Nat) (s : State) : timerRun (m + n) s = andThen (timerRun m s) (timerRun n) := by
  induction m generalizing s with
  | zero =>
    rw [Nat.zero_add]
    rfl
  | succ m ih =>
    rw [Nat.succ_add, timerRun_succ, timerRun_succ, andThen_assoc]
    exact congrArg (andThen (timerStep s)) (funext ih)

theorem timerRun_stopped (stopped : s.tmr.run = false) (n : Nat) : timerRun n s = .next s := by
  induction n with
  | zero => rfl
  | succ n ih => rw [timerRun_succ, timerStep_stopped stopped, andThen_next, ih]

theorem engineRun_succ_of_running (runs : s.tmr.run = true) (n : Nat) :
    engineRun (n + 1) s = andThen (timerStep s) (engineRun n) := by
  simp only [engineRun, engineTurn, runs, if_true]
  rfl

theorem engineRun_succ_of_stopped (stopped : s.tmr.run = false) (n : Nat) :
    engineRun (n + 1) s = andThen (stepAs .foreground s) (engineRun n) := by
  simp [engineRun, engineTurn, stopped]

/-- While the timer runs, the block by itself is STEP_TIMER; a run of STEP_TIMER that ends with the timer running never
stopped it, for nothing in it would have started it again. -/
theorem engineRun_of_timerRun (run : timerRun n s = .next u) (still_runs : u.tmr.run = true) (m : Nat) :
    engineRun (n + m) s = engineRun m u := by
  induction n generalizing s with
  | zero =>
    cases run
    rw [Nat.zero_add]
  | succ n ih =>
    have runs : s.tmr.run = true := by
      by_contra not_running
      have stopped := Bool.eq_false_iff.mpr not_running
      cases run.symm.trans (timerRun_stopped stopped (n + 1))
      exact not_running still_runs
    rw [timerRun_succ] at run
    obtain ⟨v, event, run⟩ := andThen_eq_next.mp run
    rw [Nat.succ_add, engineRun_succ_of_running runs, event, andThen_next, ih run]

end Runs

/-! ### The order in which a move goes through its indices -/

/-- The index of the `k`-th step of a move of `total` steps: from 0 up (R126), or from `total - 1` down (R127). -/
def stepNumber : Direction → Nat → Nat → Nat
  | .forward, _, k => k
  | .reverse, total, k => total - 1 - k

/-- A move of some steps starts at the index of its step 0 (R123). -/
theorem startIndex_toNat {total : U16} (dir : Direction) (steps : total ≠ 0) :
    (startIndex dir total).toNat = stepNumber dir total.toNat 0 := by
  cases dir with
  | forward => rfl
  | reverse => exact startIndex_reverse_toNat steps

/-- What a move meets of a list that has an entry for each index. -/
def inDirection {α : Type} : Direction → List α → List α
  | .forward, l => l
  | .reverse, l => l.reverse

theorem inDirection_replicate {α : Type} (dir : Direction) (n : Nat) (x : α) :
    inDirection dir (List.replicate n x) = List.replicate n x := by
  cases dir with
  | forward => rfl
  | reverse => exact List.reverse_replicate

theorem stepNumber_lt {dir : Direction} {total k : Nat} (h : k < total) : stepNumber dir total k < total := by
  cases dir with
  | forward => exact h
  | reverse => simp only [stepNumber]; omega

/-- Going through the indices of a move gives the list in the order of its direction. -/
theorem map_stepNumber {α : Type} {f : Nat → α} {l : List α} {total : Nat} (dir : Direction)
    (length_eq : l.length = total) (entries : ∀ i, i < total → l[i]? = some (f i)) :
    (List.range total).map (fun k => f (stepNumber dir total k)) = inDirection dir l := by
  subst length_eq
  have entry (i : Nat) (h : i < l.length) : f i = l[i] :=
    Option.some.inj ((entries i h).symm.trans (List.getElem?_eq_getElem h))
  apply List.ext_getElem
  · cases dir <;> simp [inDirection]
  · intro k h _
    rw [List.length_map, List.length_range] at h
    simp only [List.getElem_map, List.getElem_range, entry _ (stepNumber_lt h)]
    cases dir with
    | forward => rfl
    | reverse => simp [stepNumber, inDirection]

/-! ### Profiles -/

/-- What the compare registers and the duty are set to for the step at each index. -/
structure Profile where
  delay : Nat → U16
  duty : Nat → Byte

/-- The compare registers and the duty set for the step at index `i`. -/
def Profile.set (P : Profile) (i : Nat) (s : State) : State :=
  { s with
    tmr := { s.tmr with cmpStart := P.delay i, cmpEnd := P.delay i - s.cfg.pulseWidth }
    pwm := { s.pwm with duty := P.duty i } }

/-- The record of a pulse that starts now (R48). -/
def pulseNow (s : State) : Pulse :=
  { axis := s.axis, physDir := s.physDir, delay := s.tmr.cmpStart, laser := laserOut s }

/-- The index of the `k`-th step of the move that is armed in `a`. -/
def stepAt (a : State) (k : Nat) : Nat := stepNumber a.mc.direction a.mc.totalSteps.toNat k

/-- The `k`-th step of the move armed in `a` is due: its settings are made, and the steps before it are recorded. -/
def Profile.atStep (P : Profile) (a : State) (k : Nat) : State :=
  { P.set (stepAt a k) a with
    mc := { a.mc with stepIndex := BitVec.ofNat 16 (stepAt a k) }
    pulses := a.pulses ++ (List.range k).map fun j => pulseNow (P.set (stepAt a j) a) }

/-- The pulse of the `k`-th step has started and has not ended. -/
def Profile.inPulse (P : Profile) (a : State) (k : Nat) : State := pulseStartEvent (P.atStep a k)

/-- The `k`-th pulse has ended and the index has moved on; the mode's dispatch has not been done yet (R125). -/
def Profile.afterPulse (P : Profile) (a : State) (k : Nat) : State :=
  pulseEnded (BitVec.ofNat 16 (stepAt a (k + 1))) (P.inPulse a k)

/-- The pulse-start event is the next one. -/
def startDue (s : State) : State := { s with tmr := { s.tmr with next := .pulseStart } }

/-- In `a` a move is armed whose first `n` steps have the settings of `P`: arming made those of the first step, and the
mode's dispatch makes those of each next one. -/
structure Follows (P : Profile) (a : State) (n : Nat) : Prop where
  runs : a.tmr.run = true
  due : a.tmr.next = .pulseStart
  at_start : a.mc.stepIndex = startIndex a.mc.direction a.mc.totalSteps
  within : n ≤ a.mc.totalSteps.toNat
  first : P.set (stepAt a 0) a = a
  next : ∀ k, k + 1 < n →
    modeDispatch a.mc.mode (P.afterPulse a k) = .next (P.set (stepAt a (k + 1)) (P.afterPulse a k))

/-- The state a whole move leaves. -/
def Profile.moved (P : Profile) (a : State) : State := completed (P.inPulse a (a.mc.totalSteps.toNat - 1))

section Move

variable {P : Profile} {a : State} {k n : Nat}

/-- The move is not at its last step, so it goes on to the next index (R126, R127). -/
theorem goesOnTo_stepAt (more : k + 1 < a.mc.totalSteps.toNat) :
    GoesOnTo (P.inPulse a k).mc (BitVec.ofNat 16 (stepAt a (k + 1))) := by
  have bound := a.mc.totalSteps.isLt
  change GoesOnTo { a.mc with stepIndex := BitVec.ofNat 16 (stepAt a k) } _
  unfold stepAt
  cases dir : a.mc.direction with
  | forward =>
    refine .inl ⟨dir, (BitVec.ofNat_add k 1).symm ▸ rfl, fun last => ?_⟩
    have same := congrArg BitVec.toNat last
    simp only [stepNumber, BitVec.toNat_ofNat] at same
    omega
  | reverse =>
    refine .inr ⟨dir, fun first => ?_, ?_⟩
    · have same : (BitVec.ofNat 16 (stepNumber .reverse a.mc.totalSteps.toNat k)).toNat = 0 :=
        congrArg BitVec.toNat first
      simp only [stepNumber, BitVec.toNat_ofNat] at same
      omega
    · simp only [stepNumber]
      bv_omega

/-- At its last step the move completes (R126, R127). -/
theorem completesAt_stepAt (last : k + 1 = a.mc.totalSteps.toNat) : CompletesAt (P.inPulse a k).mc := by
  change CompletesAt { a.mc with stepIndex := BitVec.ofNat 16 (stepAt a k) }
  unfold stepAt
  cases dir : a.mc.direction with
  | forward =>
    refine .inl ⟨dir, ?_⟩
    simp only [stepNumber]
    bv_omega
  | reverse =>
    refine .inr ⟨dir, ?_⟩
    simp only [stepNumber, ← last]
    simp

theorem Follows.atStep_zero (h : Follows P a n) (some_step : 0 < n) : P.atStep a 0 = a := by
  have bound := some_step.trans_le h.within
  have steps : a.mc.totalSteps ≠ 0 := by bv_omega
  have start : BitVec.ofNat 16 (stepAt a 0) = a.mc.stepIndex := by
    rw [h.at_start, stepAt, ← startIndex_toNat _ steps, BitVec.ofNat_toNat, BitVec.setWidth_eq]
  rw [Profile.atStep, h.first, start]
  simp

theorem Follows.inPulse_runs (h : Follows P a n) (k : Nat) : (P.inPulse a k).tmr.run = true := h.runs

/-- Recording the `k`-th pulse after those before it. -/
theorem inPulse_pulses (P : Profile) (a : State) (k : Nat) :
    (P.inPulse a k).pulses = a.pulses ++ (List.range (k + 1)).map fun j => pulseNow (P.set (stepAt a j) a) := by
  rw [List.range_succ, List.map_append, ← List.append_assoc]
  rfl

/-- The settings of the next step, and the step, after the `k`-th pulse. -/
theorem pulseStartEvent_after (P : Profile) (a : State) (k : Nat) :
    pulseStartEvent (startDue (P.set (stepAt a (k + 1)) (P.afterPulse a k))) = P.inPulse a (k + 1) := by
  have recorded := inPulse_pulses P a k
  have same_pulses : (P.afterPulse a k).pulses = (P.atStep a (k + 1)).pulses := recorded
  simp only [pulseStartEvent, startDue, Profile.inPulse, Profile.set, same_pulses]
  rfl

/-- From one pulse to the next: a pulse-end event that dispatches, and a pulse-start event. -/
theorem Follows.timerRun_nextPulse (h : Follows P a n) (more : k + 1 < n) :
    timerRun 2 (P.inPulse a k) = .next (P.inPulse a (k + 1)) := by
  have next := goesOnTo_stepAt (P := P) (more.trans_le h.within)
  have ends : timerStep (P.inPulse a k) = .next (startDue (P.set (stepAt a (k + 1)) (P.afterPulse a k))) := by
    rw [timerStep_endsPulse (h.inPulse_runs k) rfl, pulseEndEvent_goesOn next]
    exact congrArg (andThen · _) (h.next k more)
  have still_runs : (startDue (P.set (stepAt a (k + 1)) (P.afterPulse a k))).tmr.run = true := h.runs
  have starts : timerStep (startDue (P.set (stepAt a (k + 1)) (P.afterPulse a k))) = .next (P.inPulse a (k + 1)) :=
    pulseStartEvent_after P a k ▸ timerStep_startsPulse still_runs rfl
  rw [timerRun_succ, ends, andThen_next, timerRun_one, starts]

/-- The first `k + 1` pulses take `2k + 1` events. -/
theorem Follows.timerRun_inPulse (h : Follows P a n) (inside : k < n) :
    timerRun (2 * k + 1) a = .next (P.inPulse a k) := by
  induction k with
  | zero => rw [timerRun_one, timerStep_startsPulse h.runs h.due, Profile.inPulse, h.atStep_zero inside]
  | succ k ih =>
    rw [show 2 * (k + 1) + 1 = (2 * k + 1) + 2 by omega, timerRun_add, ih (by omega), andThen_next,
      h.timerRun_nextPulse inside]

theorem Follows.timerStep_lastPulse (h : Follows P a n) (last : k + 1 = a.mc.totalSteps.toNat) :
    timerStep (P.inPulse a k) = .next (completed (P.inPulse a k)) := by
  rw [timerStep_endsPulse (h.inPulse_runs k) rfl, pulseEndEvent_completes (completesAt_stepAt last)]

theorem pred_totalSteps_succ (steps : a.mc.totalSteps ≠ 0) : a.mc.totalSteps.toNat - 1 + 1 = a.mc.totalSteps.toNat := by
  bv_omega

theorem moved_pulses (P : Profile) (steps : a.mc.totalSteps ≠ 0) :
    (P.moved a).pulses =
      a.pulses ++ (List.range a.mc.totalSteps.toNat).map fun k => pulseNow (P.set (stepAt a k) a) := by
  have recorded := inPulse_pulses P a (a.mc.totalSteps.toNat - 1)
  rwa [pred_totalSteps_succ steps] at recorded

variable (h : Follows P a a.mc.totalSteps.toNat) (steps : a.mc.totalSteps ≠ 0)
include h steps

/-- A move of `T` steps takes `2T` events. -/
theorem Follows.timerRun_move : timerRun (2 * a.mc.totalSteps.toNat) a = .next (P.moved a) := by
  have last := pred_totalSteps_succ steps
  rw [show 2 * a.mc.totalSteps.toNat = 2 * (a.mc.totalSteps.toNat - 1) + 1 + 1 by omega, timerRun_add,
    h.timerRun_inPulse (by omega), andThen_next, timerRun_one, h.timerStep_lastPulse last]
  rfl

/-- The block by itself begins with the whole move. -/
theorem Follows.engineRun_move (m : Nat) :
    engineRun (2 * a.mc.totalSteps.toNat + m) a = engineRun m (P.moved a) := by
  have last := pred_totalSteps_succ steps
  have pulses := h.timerRun_inPulse (k := a.mc.totalSteps.toNat - 1) (by omega)
  rw [show 2 * a.mc.totalSteps.toNat + m = 2 * (a.mc.totalSteps.toNat - 1) + 1 + (m + 1) by omega,
    engineRun_of_timerRun pulses (h.inPulse_runs _), engineRun_succ_of_running (h.inPulse_runs _),
    h.timerStep_lastPulse last, andThen_next]
  rfl

end Move

/-! ### The three modes -/

/-- In `a` this move has just been armed (R123), for the default FIRST_EVENT. -/
structure ArmedAs (mode : MoveMode) (dir : Direction) (total delay offset : U16) (a : State) : Prop where
  mc : a.mc = { mode := modeReg mode, direction := dir, stepIndex := startIndex dir total, totalSteps := total,
                scanlineOffset := offset }
  tmr : a.tmr = { run := true, cmpStart := delay, cmpEnd := delay - a.cfg.pulseWidth, next := .pulseStart }
  steps : total ≠ 0

theorem armedAs_launch {s : State} (mode : MoveMode) (dir : Direction) {total : U16} (delay offset : U16)
    (first : s.cfg.firstEvent = .pulseStart) (steps : total ≠ 0) :
    ArmedAs mode dir total delay offset (launch (populate mode dir total delay offset s)) where
  mc := rfl
  tmr := by simp [first]
  steps := steps

/-- FOREGROUND waits for the move it has armed, with `ts` to do, in a job in phase `p` (log 5). -/
def waiting (ts : List Task) (p : JobPhase) (s : State) : State :=
  { s with
    job := { s.job with phase := if s.job.phase = .none then .none else p }
    agenda := ts ++ s.agenda }

theorem waiting_job (ts : List Task) (p : JobPhase) (s : State) :
    (waiting ts p s).job = if s.job.phase = .none then s.job else { s.job with phase := p } := by
  simp only [waiting]
  split
  · next no_job => rw [← no_job]
  · rfl

theorem waiting_phase_eq_none {ts : List Task} {p : JobPhase} {s : State} (in_job : p ≠ .none) :
    (waiting ts p s).job.phase = .none ↔ s.job.phase = .none := by
  rw [waiting_job]
  split
  · exact Iff.rfl
  · next other => exact iff_of_false in_job other

theorem push_markPhase (ts : List Task) (p : JobPhase) (s : State) : push ts (markPhase p s) = waiting ts p s := by
  rw [show waiting ts p s = { s with job := (waiting ts p s).job, agenda := ts ++ s.agenda } from rfl, waiting_job]
  unfold markPhase
  split <;> rfl

theorem markPhase_push (ts : List Task) (p : JobPhase) (s : State) : markPhase p (push ts s) = waiting ts p s := by
  rw [← push_markPhase]
  unfold markPhase
  rw [push_job]
  split <;> rfl

/-- Where FOREGROUND stands is nothing to the move. -/
theorem ArmedAs.waiting {mode : MoveMode} {dir : Direction} {total delay offset : U16} {a : State}
    (h : ArmedAs mode dir total delay offset a) (ts : List Task) (p : JobPhase) :
    ArmedAs mode dir total delay offset (waiting ts p a) :=
  ⟨h.mc, h.tmr, h.steps⟩

/-- A NORMAL move keeps its delay and the duty (R129). -/
def normalProfile (a : State) : Profile := ⟨fun _ => a.tmr.cmpStart, fun _ => a.pwm.duty⟩

/-- A FROM_TABLE move takes its delays from the table and keeps the duty (R130). -/
def tableProfile (a : State) : Profile := ⟨fun i => a.cfg.table[i]?.getD 0, fun _ => a.pwm.duty⟩

/-- A RASTER move keeps its delay and takes the duty from the pixels (R131). -/
def rasterProfile (a : State) (pixels : List Byte) : Profile :=
  ⟨fun _ => a.tmr.cmpStart, fun i => pixels[i]?.getD 0⟩

theorem entry_long_of_valid {c : Params} (valid : c.Valid) {i : Nat} {d : U16} (entry : c.table[i]? = some d) :
    c.pulseWidth < d := by
  obtain ⟨-, -, -, long, -⟩ := valid
  exact long d (List.mem_of_getElem? entry)

section Modes

variable {dir : Direction} {total delay offset : U16} {a : State} {n : Nat}

theorem ArmedAs.totalSteps_eq {mode : MoveMode} (h : ArmedAs mode dir total delay offset a) :
    a.mc.totalSteps = total := by
  rw [h.mc]

theorem ArmedAs.direction_eq {mode : MoveMode} (h : ArmedAs mode dir total delay offset a) : a.mc.direction = dir := by
  rw [h.mc]

theorem ArmedAs.stepAt_zero {mode : MoveMode} (h : ArmedAs mode dir total delay offset a) :
    stepAt a 0 = (startIndex dir total).toNat := by
  rw [stepAt, h.mc, startIndex_toNat dir h.steps]

/-- The part of `Follows` that is the same in each mode: arming has made the settings of the first step. -/
theorem ArmedAs.follows {mode : MoveMode} {P : Profile} (h : ArmedAs mode dir total delay offset a)
    (within : n ≤ total.toNat) (delay_first : P.delay (stepAt a 0) = delay)
    (duty_first : P.duty (stepAt a 0) = a.pwm.duty)
    (next : ∀ k, k + 1 < n →
      modeDispatch (modeReg mode) (P.afterPulse a k) = .next (P.set (stepAt a (k + 1)) (P.afterPulse a k))) :
    Follows P a n where
  runs := by rw [h.tmr]
  due := by rw [h.tmr]
  at_start := by rw [h.mc]
  within := by rwa [h.mc]
  first := by
    have cmpStart : a.tmr.cmpStart = delay := by rw [h.tmr]
    have cmpEnd : a.tmr.cmpEnd = delay - a.cfg.pulseWidth := by rw [h.tmr]
    rw [Profile.set, delay_first, duty_first, ← cmpEnd, ← cmpStart]
  next := by rwa [h.mc]

theorem ArmedAs.follows_normal (h : ArmedAs .normal dir total delay offset a) :
    Follows (normalProfile a) a total.toNat :=
  h.follows le_rfl (by rw [normalProfile, h.tmr]) rfl fun _ _ => rfl

/-- The index register during a move holds the index of the step. -/
theorem afterPulse_stepIndex_toNat (P : Profile) {k : Nat} (inside : k + 1 < a.mc.totalSteps.toNat) :
    (P.afterPulse a k).mc.stepIndex.toNat = stepAt a (k + 1) := by
  have bound := a.mc.totalSteps.isLt
  have below : stepAt a (k + 1) < a.mc.totalSteps.toNat := stepNumber_lt inside
  exact (BitVec.toNat_ofNat ..).trans (Nat.mod_eq_of_lt (below.trans bound))

/-- As long as a FROM_TABLE move meets table entries, it is set by them. -/
theorem ArmedAs.follows_table (h : ArmedAs .fromTable dir total delay offset a) (valid : a.cfg.Valid)
    (within : n ≤ total.toNat) (entry : a.cfg.table[(startIndex dir total).toNat]? = some delay)
    (inside : ∀ k, k < n → stepAt a k < a.cfg.table.length) : Follows (tableProfile a) a n := by
  refine h.follows within (by simp [tableProfile, h.stepAt_zero, entry]) rfl fun k more => ?_
  have same_total := h.totalSteps_eq
  have not_last : k + 1 < a.mc.totalSteps.toNat := same_total ▸ more.trans_le within
  have index := afterPulse_stepIndex_toNat (tableProfile a) not_last
  obtain ⟨d, looked_up⟩ : ∃ d, a.cfg.table[stepAt a (k + 1)]? = some d :=
    ⟨_, List.getElem?_eq_getElem (inside (k + 1) more)⟩
  have set_to : (tableProfile a).delay (stepAt a (k + 1)) = d := by simp [tableProfile, looked_up]
  have found : a.cfg.table[((tableProfile a).afterPulse a k).mc.stepIndex.toNat]? = some d := by
    rw [index]
    exact looked_up
  refine (dispatchFromTable_entry found).trans (timerProgram_next.mpr ⟨entry_long_of_valid valid looked_up, ?_⟩)
  rw [Profile.set, set_to]
  rfl

/-- A RASTER move over written elements is set by their pixels. -/
theorem ArmedAs.follows_raster {pixels : List Byte} (h : ArmedAs .raster dir total delay offset a)
    (fits : offset.toNat + total.toNat ≤ a.cfg.scanCap.toNat)
    (written : ∀ j, j < total.toNat → a.scan.read (offset.toNat + j) = some (pixels[j]?.getD 0))
    (duty_first : pixels[(startIndex dir total).toNat]?.getD 0 = a.pwm.duty) :
    Follows (rasterProfile a pixels) a total.toNat := by
  refine h.follows le_rfl (by rw [rasterProfile, h.tmr]) (h.stepAt_zero ▸ duty_first) fun k more => ?_
  have same_total := h.totalSteps_eq
  have below : stepAt a (k + 1) < total.toNat := by
    rw [stepAt, same_total]
    exact stepNumber_lt more
  have not_last : k + 1 < a.mc.totalSteps.toNat := same_total ▸ more
  have index := afterPulse_stepIndex_toNat (rasterProfile a pixels) not_last
  have same_offset : ((rasterProfile a pixels).afterPulse a k).mc.scanlineOffset = offset :=
    (congrArg MoveCommand.scanlineOffset h.mc :)
  refine dispatchRaster_written ?_ ?_
  · rw [index, same_offset]
    exact lt_of_lt_of_le (Nat.add_lt_add_left below _) fits
  · rw [index, same_offset]
    exact written _ below

/-! ### The records of a move -/

theorem getElem?_eq_some_getD {α : Type} {l : List α} {i : Nat} (inside : i < l.length) (default : α) :
    l[i]? = some (l[i]?.getD default) := by
  rw [List.getElem?_eq_getElem inside, Option.getD_some]

/-- With one laser intensity throughout, the records of a move are those of its delays. -/
theorem moved_pulses_of_delays {P : Profile} {delays : List U16} (steps : a.mc.totalSteps ≠ 0)
    (length_eq : delays.length = a.mc.totalSteps.toNat)
    (delay_eq : ∀ i, i < a.mc.totalSteps.toNat → delays[i]? = some (P.delay i))
    (duty_eq : ∀ i, P.duty i = a.pwm.duty) :
    (P.moved a).pulses = a.pulses ++ pulsesAt a (laserOut a) (inDirection a.mc.direction delays) := by
  have record (i : Nat) : pulseNow (P.set i a) =
      { axis := a.axis, physDir := a.physDir, delay := P.delay i, laser := laserOut a } := by
    rw [pulseNow, Profile.set, duty_eq]
    rfl
  rw [moved_pulses P steps, pulsesAt, ← map_stepNumber a.mc.direction length_eq delay_eq, List.map_map]
  simp only [record]
  rfl

theorem ArmedAs.normal_pulses (h : ArmedAs .normal dir total delay offset a) :
    ((normalProfile a).moved a).pulses = a.pulses ++ pulsesAt a (laserOut a) (List.replicate total.toNat delay) := by
  have same := h.totalSteps_eq
  have cmpStart : a.tmr.cmpStart = delay := by rw [h.tmr]
  rw [moved_pulses_of_delays (delays := List.replicate total.toNat delay) (same ▸ h.steps) (by simp [same]),
    inDirection_replicate]
  · intro i inside
    rw [List.getElem?_replicate, if_pos (same ▸ inside), ← cmpStart]
    rfl
  · exact fun _ => rfl

theorem ArmedAs.table_pulses (h : ArmedAs .fromTable dir total delay offset a)
    (inside : total.toNat ≤ a.cfg.table.length) :
    ((tableProfile a).moved a).pulses =
      a.pulses ++ pulsesAt a (laserOut a) (inDirection dir (a.cfg.table.take total.toNat)) := by
  have same := h.totalSteps_eq
  rw [moved_pulses_of_delays (delays := a.cfg.table.take total.toNat) (same ▸ h.steps) (by simp [same, inside]),
    h.direction_eq]
  · intro i below
    rw [same] at below
    rw [List.getElem?_take_of_lt below, List.getElem?_eq_getElem (below.trans_le inside)]
    simp [tableProfile, List.getElem?_eq_getElem (below.trans_le inside)]
  · exact fun _ => rfl

/-- With the output connected, the records of a RASTER move are those of its pixels. -/
theorem ArmedAs.raster_pulses {pixels : List Byte} (h : ArmedAs .raster dir total delay offset a)
    (length_eq : pixels.length = total.toNat) (on : a.pwm.connected = true ∧ a.pwm.run = true) :
    ((rasterProfile a pixels).moved a).pulses = a.pulses ++ rasterPulses a delay (inDirection dir pixels) := by
  have same := h.totalSteps_eq
  have cmpStart : a.tmr.cmpStart = delay := by rw [h.tmr]
  have record (i : Nat) : pulseNow ((rasterProfile a pixels).set i a) =
      { axis := a.axis, physDir := a.physDir, delay := delay, laser := pixels[i]?.getD 0 } := by
    simp [pulseNow, Profile.set, rasterProfile, cmpStart, on]
  have entries (i : Nat) (inside : i < total.toNat) := getElem?_eq_some_getD (length_eq ▸ inside : i < pixels.length) 0
  rw [moved_pulses _ (same ▸ h.steps), rasterPulses, ← map_stepNumber dir length_eq entries, List.map_map]
  simp only [record, stepAt, same, h.direction_eq]
  rfl

end Modes

/-- What else a move leaves: its last settings, and an idle engine. -/
theorem moved_eq (P : Profile) (a : State) :
    P.moved a =
      { a with
        mc := { a.mc with stepIndex := finalIndex a.mc.direction a.mc.totalSteps }
        tmr := { (P.inPulse a (a.mc.totalSteps.toNat - 1)).tmr with run := false }
        running := false
        stepOut := false
        pwm := { a.pwm with duty := P.duty (stepAt a (a.mc.totalSteps.toNat - 1)) }
        pulses := (P.moved a).pulses } := rfl

/-! ### The statements on one move -/

/-- Settles O32: the profile of a NORMAL move is constant. -/
theorem normalMoveEmitsItsPulses : Obligations.NormalMoveEmitsItsPulses := by
  intro s dir total delay offset idle low first steps long
  have armed := armedAs_launch (s := s) .normal dir delay offset first steps
  refine ⟨_, armMove_eq idle steps long, (armed.follows_normal.timerRun_move steps).trans ?_⟩
  rw [moved_eq, armed.normal_pulses, idle, low]
  rfl

/-- Settles O33: the profile of a FROM_TABLE move is the table. -/
theorem tableMoveEmitsTheTable : Obligations.TableMoveEmitsTheTable := by
  intro s dir total delay offset valid idle first steps inside entry
  have armed := armedAs_launch (s := s) .fromTable dir delay offset first steps
  have long : s.cfg.pulseWidth < delay := entry_long_of_valid valid entry
  have follows := armed.follows_table valid le_rfl entry fun k below => (stepNumber_lt below).trans_le inside
  refine ⟨_, _, armMove_eq idle steps long, follows.timerRun_move steps, ?_, rfl, rfl, rfl, rfl, ?_⟩
  · rw [armed.table_pulses inside]
    cases dir <;> rfl
  · rw [moved_eq, idle]
    rfl

/-! ### A whole raster move -/

section Raster

variable {w offset rate : U16} {dir : Direction} {s : State}

/-- The first pixel is in the duty register and the output is connected (R155, R157). -/
def firstPixel (i : Nat) (s : State) : State :=
  { scanTouch i s with pwm := { duty := scanValue i s, run := true, connected := true } }

theorem firstPixel_of_written {i : Nat} {b : Byte} (h : s.scan.read i = some b) :
    firstPixel i s = { s with pwm := { duty := b, run := true, connected := true } } := by
  rw [firstPixel, scanTouch_of_written h, scanValue_of_written h]

/-- `raster_move` up to its wait (R157). -/
theorem exec_rasterMove_inside (idle : s.running = false) (steps : w ≠ 0) (long : s.cfg.pulseWidth < rate)
    (inside : scanIndex offset (startIndex dir w) < s.cfg.scanCap.toNat) :
    exec (.rasterMove w offset dir rate) s =
      .next (waiting [.wait, .laserOff] .raster
        (launch (populate .raster dir w rate offset (firstPixel (scanIndex offset (startIndex dir w)) s)))) := by
  change execRasterMove w offset dir rate s = _
  refine readScan_next.mpr ⟨inside, ?_⟩
  generalize pixel : scanIndex offset (startIndex dir w) = i
  have touched_idle : (scanTouch i s).running = false := by rwa [scanTouch_running]
  have still_long : (firstPixel i s).cfg.pulseWidth < rate := by
    change (scanTouch i s).cfg.pulseWidth < rate
    rwa [scanTouch_cfg]
  have enables :
      writeOutput true { scanTouch i s with pwm := { (scanTouch i s).pwm with duty := scanValue i s } } =
        .next (firstPixel i s) :=
    writeOutput_next.mpr ⟨touched_idle, rfl⟩
  rw [preload_next.mpr ⟨touched_idle, rfl⟩, andThen_next, enables, andThen_next,
    armMove_eq (s := firstPixel i s) touched_idle steps still_long, andThen_next, push_markPhase]

/-- The task after the wait of a raster move (R157): the output is disconnected and FOREGROUND goes on. -/
theorem resume_laserOff {rest : List Task} (idle : s.running = false) :
    resume (.laserOff :: rest) s = resume rest (setOutput false { s with agenda := rest }) := by
  have off : runTask .laserOff { s with agenda := rest } = .next (setOutput false { s with agenda := rest }) :=
    exec_laserDisable_idle idle
  rw [resume_cons, off, andThen_next]
  simp [idle]

end Raster

/-- Settles O36: the profile of a RASTER move is the line. -/
theorem rasterMoveDrawsTheScanline : Obligations.RasterMoveDrawsTheScanline := by
  intro s w offset rate dir pixels idle first steps long fits length_eq written
  have start_inside : (startIndex dir w).toNat < w.toNat := BitVec.lt_def.mp (startIndex_lt steps)
  have read (j : Nat) (inside : j < w.toNat) : s.scan.read (offset.toNat + j) = some (pixels[j]?.getD 0) :=
    (written j inside).trans (getElem?_eq_some_getD (length_eq ▸ inside : j < pixels.length) 0)
  have arms := exec_rasterMove_inside (dir := dir) idle steps long
    ((Nat.add_lt_add_left start_inside offset.toNat).trans_le fits)
  rw [scanIndex, firstPixel_of_written (read _ start_inside)] at arms
  generalize first_pixel : pixels[(startIndex dir w).toNat]?.getD 0 = b at arms
  have armed := (armedAs_launch (s := { s with pwm := { duty := b, run := true, connected := true } })
    .raster dir rate offset first steps).waiting [.wait, .laserOff] .raster
  have follows := armed.follows_raster fits read first_pixel
  have recorded := armed.raster_pulses length_eq ⟨rfl, rfl⟩
  refine ⟨_, _, _, arms, follows.timerRun_move steps,
    (stepAs_foreground_wait_idle rfl rfl).trans (resume_laserOff rfl), ?_, rfl, rfl, rfl, rfl, rfl, rfl, rfl,
    ?_, ?_⟩
  · refine recorded.trans ?_
    cases dir <;> rfl
  · exact waiting_job [.wait, .laserOff] .raster _
  · rw [moved_eq, idle]
    rfl

/-! ### What a ramp call writes -/

/-- From `s` to `u` nothing has been written but what a move without the laser writes, the scan result, and FOREGROUND's
place (R47, R166). -/
def RampWrites (s u : State) : Prop :=
  u = { s with
    mc := u.mc, tmr := u.tmr, stepOut := u.stepOut, pulses := u.pulses, agenda := u.agenda
    job := { s.job with k := u.job.k, phase := u.job.phase } }

theorem rampWrites_scanRamp (rate : U16) (s : State) : RampWrites s (scanRamp rate s) := rfl

theorem RampWrites.trans {s t u : State} (h : RampWrites s t) (h' : RampWrites t u) : RampWrites s u := by
  unfold RampWrites at *
  rw [h', h]

/-- The latches and the laser are as they were, so a record is what it would have been. -/
theorem RampWrites.pulsesAt_eq {s u : State} (h : RampWrites s u) :
    pulsesAt u (laserOut u) = pulsesAt s (laserOut s) := by
  rw [h]
  rfl

theorem RampWrites.cfg_eq {s u : State} (h : RampWrites s u) : u.cfg = s.cfg := by
  rw [h]

/-! ### A whole decelerate -/

/-- The reverse FROM_TABLE move of `decelerate`, of `k + 1` steps from `TABLE[k]`, armed and waited for (R169). -/
def rampArmed (delay : U16) (x : State) : State :=
  waiting [.wait] .decelRamp (launch (populate .fromTable .reverse (x.job.k + 1) delay 0 x))

/-- The state the ramp of `decelerate` leaves. -/
def rampDone (delay : U16) (x : State) : State := (tableProfile (rampArmed delay x)).moved (rampArmed delay x)

section Ramp

variable {x : State} {delay : U16} (valid : x.cfg.Valid) (entry : x.cfg.table[x.job.k.toNat]? = some delay)
include valid entry

/-- A ramp inside the table has a step count of 16 bits, for the table has at most 65534 entries (R8). -/
theorem ramp_steps : (x.job.k + 1).toNat = x.job.k.toNat + 1 ∧ x.job.k.toNat + 1 ≤ x.cfg.table.length := by
  obtain ⟨-, short, -⟩ := valid
  have inside := (List.getElem?_eq_some_iff.mp entry).1
  have no_carry : (x.job.k + 1).toNat = x.job.k.toNat + 1 := by bv_omega
  exact ⟨no_carry, inside⟩

theorem ramp_some_steps : x.job.k + 1 ≠ 0 := by
  obtain ⟨no_carry, -⟩ := ramp_steps valid entry
  intro none
  rw [none] at no_carry
  exact nomatch no_carry

theorem decelRamp_eq (idle : x.running = false) : decelRamp x = .next (rampArmed delay x) := by
  have steps := ramp_some_steps valid entry
  refine readTable_next.mpr ⟨delay, entry, ?_⟩
  rw [moveAndWait_eq idle steps (entry_long_of_valid valid entry), andThen_next, markPhase_push]
  rfl

variable (first : x.cfg.firstEvent = .pulseStart)
include first

theorem rampArmed_armedAs : ArmedAs .fromTable .reverse (x.job.k + 1) delay 0 (rampArmed delay x) :=
  (armedAs_launch .fromTable .reverse delay 0 first (ramp_some_steps valid entry)).waiting [.wait] .decelRamp

/-- The block by itself draws the ramp first. -/
theorem engineRun_ramp (m : Nat) :
    engineRun (2 * (x.job.k + 1).toNat + m) (rampArmed delay x) = engineRun m (rampDone delay x) := by
  obtain ⟨no_carry, inside⟩ := ramp_steps valid entry
  have steps := ramp_some_steps valid entry
  have start : (startIndex .reverse (x.job.k + 1)).toNat = x.job.k.toNat := by
    rw [startIndex_reverse_toNat steps, no_carry, Nat.add_sub_cancel]
  have follows := (rampArmed_armedAs valid entry first).follows_table valid le_rfl (start ▸ entry) fun k below =>
    (stepNumber_lt below).trans_le (no_carry ▸ inside)
  exact follows.engineRun_move steps m

theorem rampDone_pulses :
    (rampDone delay x).pulses =
      x.pulses ++ pulsesAt x (laserOut x) (x.cfg.table.take (x.job.k.toNat + 1)).reverse := by
  obtain ⟨no_carry, inside⟩ := ramp_steps valid entry
  have recorded := (rampArmed_armedAs valid entry first).table_pulses (no_carry ▸ inside)
  rw [no_carry] at recorded
  exact recorded

end Ramp

/-- FOREGROUND goes on with the ramp of `decelerate` and holds in its wait (R169, R237). -/
theorem resume_decelRamp {s : State} {rest : List Task} {delay : U16} (valid : s.cfg.Valid)
    (entry : s.cfg.table[s.job.k.toNat]? = some delay) (idle : s.running = false) :
    resume (.decelRamp :: rest) s = .next (rampArmed delay { s with agenda := rest }) := by
  have arms : runTask .decelRamp { s with agenda := rest } = .next (rampArmed delay { s with agenda := rest }) :=
    decelRamp_eq (x := { s with agenda := rest }) valid entry idle
  rw [resume_cons, arms, andThen_next]
  rfl

theorem rampDone_writes {x : State} (delay : U16) (idle : x.running = false) : RampWrites x (rampDone delay x) := by
  unfold RampWrites
  rw [idle]
  rfl

/-- The flat move of `decelerate`, armed and waited for; its ramp is the next task (R169). -/
def flatArmed (n rate : U16) (x : State) : State :=
  waiting [.wait, .decelRamp] .decelFlat (launch (populate .normal .forward n rate 0 x))

/-- The flat move has ended and FOREGROUND has come to the ramp. -/
def flatDone (n rate : U16) (x : State) : State :=
  { (normalProfile (flatArmed n rate x)).moved (flatArmed n rate x) with agenda := x.agenda }

theorem flatDone_writes {x : State} (n rate : U16) (idle : x.running = false) : RampWrites x (flatDone n rate x) := by
  unfold RampWrites
  rw [idle]
  rfl

section Flat

variable {x : State} {n rate delay : U16} (steps : n ≠ 0) (first : x.cfg.firstEvent = .pulseStart)
include steps first

theorem flatArmed_armedAs : ArmedAs .normal .forward n rate 0 (flatArmed n rate x) :=
  (armedAs_launch .normal .forward rate 0 first steps).waiting [.wait, .decelRamp] .decelFlat

theorem flatDone_pulses :
    (flatDone n rate x).pulses = x.pulses ++ pulsesAt x (laserOut x) (List.replicate n.toNat rate) :=
  (flatArmed_armedAs steps first).normal_pulses

/-- The block by itself draws the flat move and arms the ramp in the step in which its wait lifts (R237). -/
theorem engineRun_flat (valid : x.cfg.Valid) (entry : x.cfg.table[x.job.k.toNat]? = some delay) (m : Nat) :
    engineRun (2 * n.toNat + (m + 1)) (flatArmed n rate x) = engineRun m (rampArmed delay (flatDone n rate x)) := by
  have drawn := (flatArmed_armedAs (rate := rate) steps first).follows_normal.engineRun_move steps (m + 1)
  have arms : stepAs .foreground ((normalProfile (flatArmed n rate x)).moved (flatArmed n rate x)) =
      .next (rampArmed delay (flatDone n rate x)) :=
    (stepAs_foreground_wait_idle rfl rfl).trans (resume_decelRamp valid entry rfl)
  exact drawn.trans (by rw [engineRun_succ_of_stopped rfl, arms, andThen_next])

end Flat

/-- The scan of a rate that some entry is below leaves the index of that entry (R166). -/
theorem scanRamp_k_toNat {s : State} {rate : U16} (valid : s.cfg.Valid)
    (inside : rampLength s.cfg.table rate < s.cfg.table.length) :
    (scanRamp rate s).job.k.toNat = rampLength s.cfg.table rate := by
  obtain ⟨-, short, -⟩ := valid
  exact (BitVec.toNat_ofNat ..).trans (Nat.mod_eq_of_lt (by omega))

/-- In `x` a `decelerate` called in `s` has come to its ramp: the flat move, if there was one, is drawn. -/
structure AtRamp (rate padSteps : U16) (s x : State) : Prop where
  idle : x.running = false
  writes : RampWrites s x
  pending : x.agenda = s.agenda
  k : x.job.k.toNat = rampLength s.cfg.table rate
  phase : x.job.phase = .none ↔ s.job.phase = .none
  pulses : x.pulses = s.pulses ++
    pulsesAt s (laserOut s) (List.replicate (padSteps.toNat - rampLength s.cfg.table rate) rate)

section Decelerate

variable {s : State} {rate padSteps delay : U16}

/-- `decelerate` up to its first wait (R169). -/
theorem exec_decelerate (idle : s.running = false) (long : s.cfg.pulseWidth < rate) :
    exec (.decelerate rate padSteps) s =
      if (scanRamp rate s).job.k < padSteps then
        .next (flatArmed (padSteps - (scanRamp rate s).job.k) rate (scanRamp rate s))
      else decelRamp (scanRamp rate s) := by
  change execDecelerate rate padSteps s = _
  unfold execDecelerate
  split
  · next some_flat =>
    have steps : padSteps - (scanRamp rate s).job.k ≠ 0 := by bv_omega
    rw [armMove_eq (s := scanRamp rate s) idle steps long, andThen_next, push_markPhase]
    rfl
  · rfl

/-- The block by itself comes to the ramp of `decelerate` and arms it, whether a flat move comes first or not. -/
theorem decelerate_comes_to_ramp (valid : s.cfg.Valid) (first : s.cfg.firstEvent = .pulseStart)
    (idle : s.running = false) (long : s.cfg.pulseWidth < rate)
    (inside : rampLength s.cfg.table rate < s.cfg.table.length)
    (entry : s.cfg.table[rampLength s.cfg.table rate]? = some delay) :
    ∃ t m x, AtRamp rate padSteps s x ∧ exec (.decelerate rate padSteps) s = .next t ∧
      ∀ n, engineRun (m + n) t = engineRun n (rampArmed delay x) := by
  have k := scanRamp_k_toNat valid inside
  have entry : (scanRamp rate s).cfg.table[(scanRamp rate s).job.k.toNat]? = some delay := by rwa [k]
  rw [exec_decelerate idle long]
  by_cases some_flat : (scanRamp rate s).job.k < padSteps
  · have steps : padSteps - (scanRamp rate s).job.k ≠ 0 := by bv_omega
    have flat_steps : (padSteps - (scanRamp rate s).job.k).toNat = padSteps.toNat - rampLength s.cfg.table rate := by
      rw [← k]
      bv_omega
    have drawn := flatDone_pulses (x := scanRamp rate s) (rate := rate) steps first
    rw [flat_steps] at drawn
    have ramp : AtRamp rate padSteps s (flatDone (padSteps - (scanRamp rate s).job.k) rate (scanRamp rate s)) :=
      ⟨rfl, (rampWrites_scanRamp rate s).trans (flatDone_writes _ _ idle), rfl, k, waiting_phase_eq_none (ts := [.wait, .decelRamp]) nofun,
        drawn⟩
    refine ⟨_, 2 * (padSteps - (scanRamp rate s).job.k).toNat + 1, _, ramp, if_pos some_flat, fun n => ?_⟩
    rw [Nat.add_assoc, Nat.add_comm 1 n]
    exact engineRun_flat (x := scanRamp rate s) steps first valid entry n
  · have no_flat : padSteps.toNat - rampLength s.cfg.table rate = 0 := by
      rw [← k]
      bv_omega
    have drawn : (scanRamp rate s).pulses = s.pulses ++ pulsesAt s (laserOut s)
        (List.replicate (padSteps.toNat - rampLength s.cfg.table rate) rate) := by
      rw [no_flat]
      exact (List.append_nil _).symm
    exact ⟨_, 0, scanRamp rate s, ⟨idle, rampWrites_scanRamp rate s, rfl, k, Iff.rfl, drawn⟩,
      (if_neg some_flat).trans (decelRamp_eq valid entry idle), fun n => by rw [Nat.zero_add]⟩

end Decelerate

/-- What `decelerate` emits: the mirror image of `accelerate` (R168, R169). -/
theorem reverse_accelDelays (table : List U16) (rate padSteps : U16) :
    (accelDelays table rate padSteps).reverse =
      List.replicate (padSteps.toNat - rampLength table rate) rate ++
        (table.take (rampLength table rate + 1)).reverse := by
  rw [accelDelays, List.reverse_append, List.reverse_replicate]

/-- Settles O42: the ramp follows the flat move, and FOREGROUND's wait for it lifts when it is drawn. -/
theorem decelerateEmitsCruiseThenRamp : Obligations.DecelerateEmitsCruiseThenRamp := by
  intro s rate padSteps valid first idle long inside
  have entry := List.getElem?_eq_getElem inside
  obtain ⟨t, m, x, ramp, arms, comes⟩ :=
    decelerate_comes_to_ramp (padSteps := padSteps) valid first idle long inside entry
  generalize s.cfg.table[rampLength s.cfg.table rate] = delay at entry comes
  have same := ramp.writes.cfg_eq
  have x_valid : x.cfg.Valid := same ▸ valid
  have x_entry : x.cfg.table[x.job.k.toNat]? = some delay := by rw [ramp.k, same, entry]
  have x_first : x.cfg.firstEvent = .pulseStart := same ▸ first
  have run := engineRun_ramp x_valid x_entry x_first 0
  have writes := ramp.writes.trans (rampDone_writes delay ramp.idle)
  refine ⟨t, _, rampDone delay x, arms, (comes _).trans run, ?resumes, ?pulses, rfl, rfl, rfl, ramp.k, rfl, ?phase,
    writes⟩
  case resumes =>
    rw [← ramp.pending]
    exact stepAs_foreground_wait_idle rfl rfl
  case pulses =>
    rw [rampDone_pulses x_valid x_entry x_first, ramp.pulses, ramp.writes.pulsesAt_eq, ramp.k, same,
      reverse_accelDelays, List.append_assoc, pulsesAt, pulsesAt, pulsesAt, List.map_append]
  case phase =>
    change (if x.job.phase = .none then .none else .decelRamp : JobPhase) = _
    simp only [ramp.phase]

end Sys2Proof.Machine

/-! SUPPORT. Weak fairness (R122, R300; log 3): a free turn that is not STEP_TIMER's uses up the patience of the enabled
event, a prescribed one is used up, and an event brings the move nearer to its end. With the statement O58. -/

namespace Sys2Proof.Machine

/-! ### Runs of the whole block -/

section Run

variable {M : Host.Core} {u v : M.State}

theorem coreRun_succ_of_next (h : M.step u = .next v) (n : Nat) : M.run (n + 1) u = M.run n v := by
  rw [Host.Core.run, h]

theorem coreRun_one_of_fault {e : M.Fault} (h : M.step u = .fault e) : M.run 1 u = .fault e := by
  rw [Host.Core.run, h]

theorem coreRun_one_of_refused {e : M.Refusal} (h : M.step u = .refused e) : M.run 1 u = .refused e := by
  rw [Host.Core.run, h]

end Run

theorem run_succ_of_next {s t : State} (h : step s = .next t) (n : Nat) :
    Host.Core.run Sys2Proof.core (n + 1) s = Host.Core.run Sys2Proof.core n t :=
  coreRun_succ_of_next (M := Sys2Proof.core) h n

theorem run_one_of_fault {s : State} {e : Fault} (h : step s = .fault e) :
    Host.Core.run Sys2Proof.core 1 s = .fault e :=
  coreRun_one_of_fault (M := Sys2Proof.core) h

theorem run_one_of_refused {s : State} {e : Refusal} (h : step s = .refused e) :
    Host.Core.run Sys2Proof.core 1 s = .refused e :=
  coreRun_one_of_refused (M := Sys2Proof.core) h

/-! ### The schedule -/

/-- What the choice of turns reads and writes (log 3). -/
def schedule (s : State) : List Turn × Nat × Nat := (s.turns, s.tick, s.waited)

theorem write_schedule {k : Scope} {s t : State} (h : Write k s t) : schedule t = schedule s := by
  cases h <;> rfl

/-- A turn itself leaves the schedule alone. -/
theorem takeTurn_schedule {c : Turn} {s t : State} (h : takeTurn c s = .next t) : schedule t = schedule s := by
  rcases takeTurn_effect h with writes | ⟨-, e, event⟩
  · exact writes_unchanged schedule write_schedule writes
  · rw [event_frame event]
    rfl

/-- How many more free turns the enabled event can be made to wait. -/
def patienceLeft (s : State) : Nat := Config.patience (s.tick - s.waited) - s.waited

section FreeTurn

variable {s t : State} (runs : s.tmr.run = true) (free : s.turns = []) (other : nextTurn s ≠ .timer)
include runs free other

theorem patienceLeft_pos : 0 < patienceLeft s := by
  have not_due : ¬ timerDue s = true := fun due => other (nextTurn_of_due free due)
  simp only [timerDue, runs, Bool.true_and, decide_eq_true_eq] at not_due
  exact Nat.sub_pos_of_lt (Nat.lt_of_not_le not_due)

theorem afterChoice_of_other : afterChoice s = { s with tick := s.tick + 1, waited := s.waited + 1 } := by
  have chosen : freeTurn s ≠ .timer := by simpa [nextTurn, free] using other
  simp [afterChoice, free, runs, chosen]

/-- A free turn of another agent uses up one turn of the event's patience. -/
theorem patienceLeft_of_schedule (h : schedule t = schedule (afterChoice s)) :
    t.turns = [] ∧ patienceLeft t + 1 = patienceLeft s := by
  have positive := patienceLeft_pos runs free other
  rw [afterChoice_of_other runs free other] at h
  simp only [schedule, Prod.mk.injEq] at h
  obtain ⟨turns, tick, waited⟩ := h
  unfold patienceLeft at *
  rw [tick, waited, Nat.add_sub_add_right]
  exact ⟨turns.trans free, by omega⟩

end FreeTurn

/-! ### An event occurs -/

/-- In at most `n` steps the block comes to STEP_TIMER's turn, with the timer as it is, or it stops. -/
def EventWithin (n : Nat) (s : State) : Prop :=
  ∃ k, k ≤ n ∧
    ((∃ t : State, Host.Core.run Sys2Proof.core k s = .next t ∧ t.tmr = s.tmr ∧ nextTurn t = .timer) ∨
      (∃ f, Host.Core.run Sys2Proof.core k s = .fault f) ∨ (∃ r, Host.Core.run Sys2Proof.core k s = .refused r))

theorem EventWithin.of_step {n : Nat} {s t : State} (h : step s = .next t) (same : t.tmr = s.tmr)
    (event : EventWithin n t) : EventWithin (n + 1) s := by
  obtain ⟨k, hk, outcome⟩ := event
  rw [← run_succ_of_next h, same] at outcome
  exact ⟨k + 1, Nat.succ_le_succ hk, outcome⟩

/-- A turn of another agent leaves the engine alone during a move (R71, R72). -/
theorem step_of_other_engineState {s t : State} (moving : s.running = true) (other : nextTurn s ≠ .timer)
    (h : step s = .next t) : engineState t = engineState s := by
  have chosen : engineState (afterChoice s) = engineState s := by simp [engineState]
  rcases takeTurn_effect h with writes | ⟨timer, -⟩
  · exact (writes_engineState (by rwa [afterChoice_running]) writes).trans chosen
  · exact absurd timer other

theorem eventWithin_patienceLeft {s : State} (timer : s.tmr.run = s.running) (runs : s.tmr.run = true)
    (free : s.turns = []) : EventWithin (patienceLeft s) s := by
  generalize left : patienceLeft s = n
  induction n generalizing s with
  | zero =>
    have due : nextTurn s = .timer := by
      by_contra other
      exact absurd left (patienceLeft_pos runs free other).ne'
    exact ⟨0, le_rfl, .inl ⟨s, rfl, rfl, due⟩⟩
  | succ n ih =>
    by_cases other : nextTurn s = .timer
    · exact ⟨0, Nat.zero_le _, .inl ⟨s, rfl, rfl, other⟩⟩
    · cases h : step s with
      | next t =>
        have same := step_of_other_engineState (timer ▸ runs) other h
        simp only [engineState, Prod.mk.injEq] at same
        obtain ⟨-, tmr, -, -, -, running, -⟩ := same
        obtain ⟨turns, used⟩ := patienceLeft_of_schedule runs free other (takeTurn_schedule h)
        refine .of_step h tmr (ih ?_ ?_ turns ?_)
        · rw [tmr, running, timer]
        · rw [tmr, runs]
        · omega
      | fault f => exact ⟨1, Nat.le_add_left 1 n, .inr (.inl ⟨f, run_one_of_fault h⟩)⟩
      | refused r => exact ⟨1, Nat.le_add_left 1 n, .inr (.inr ⟨r, run_one_of_refused h⟩)⟩

/-! ### A move of a session -/

/-- A move of a session is active: FOREGROUND waits for it, and its indices end at most one past the table, or inside the
buffer. -/
structure Underway (s : State) : Prop where
  valid : s.cfg.Valid
  moving : s.running = true
  runs : s.tmr.run = true
  waits : s.agenda.head? = some .wait
  mode : s.mc.mode ≠ .reserved
  below : s.mc.stepIndex < s.mc.totalSteps
  table : s.mc.mode = .fromTable → s.mc.totalSteps.toNat ≤ s.cfg.table.length + 1
  raster : s.mc.mode = .raster → s.mc.scanlineOffset.toNat + s.mc.totalSteps.toNat ≤ s.cfg.scanCap.toNat

/-- The phases that have a move are those in which a line is being drawn (R237). -/
theorem drawing_of_phaseMode {p : JobPhase} {m : ModeReg} (h : phaseMode p = some m) : drawing p = true := by
  cases p with
  | none | reqLine | readLine => nomatch h
  | accelRamp | accelFlat | raster | decelFlat | decelRamp | pitch => rfl

theorem underway_of_sessionInv {s : State} (h : SessionInv s) (moving : s.running = true) : Underway s := by
  obtain ⟨valid, ⟨timer, -, -, ⟨width_fits, -⟩, -, move, -⟩, -, -, scanned, waited_for, -⟩ := h
  obtain ⟨mode, below, -, -⟩ := move moving
  obtain ⟨waits, phase, table, raster⟩ := waited_for moving
  refine ⟨valid, moving, timer.trans moving, waits, mode, below, fun in_mode => ?_, fun in_mode => ?_⟩
  · rw [table in_mode, scanned (drawing_of_phaseMode phase)]
    exact Nat.succ_le_succ (rampLength_le ..)
  · obtain ⟨total, offset⟩ := raster in_mode
    rw [total, offset]
    simpa using BitVec.le_def.mp width_fits

/-- What concerns the move is as it was. -/
theorem Underway.congr {s t : State} (h : Underway s) (cfg : t.cfg = s.cfg) (mc : t.mc = s.mc)
    (running : t.running = s.running) (run : t.tmr.run = s.tmr.run) (agenda : t.agenda = s.agenda) : Underway t where
  valid := cfg ▸ h.valid
  moving := running ▸ h.moving
  runs := run ▸ h.runs
  waits := agenda ▸ h.waits
  mode := mc ▸ h.mode
  below := mc ▸ h.below
  table := by rw [mc, cfg]; exact h.table
  raster := by rw [mc, cfg]; exact h.raster

theorem Underway.after_choice {s : State} (h : Underway s) : Underway (afterChoice s) :=
  h.congr (afterChoice_cfg s) (afterChoice_mc s) (afterChoice_running s) (congrArg StepTimer.run (afterChoice_tmr s))
    (afterChoice_agenda s)

/-- The pulses the move still has to end. -/
def pulsesLeft (mc : MoveCommand) : Nat :=
  match mc.direction with
  | .forward => mc.totalSteps.toNat - mc.stepIndex.toNat
  | .reverse => mc.stepIndex.toNat + 1

/-- The events the move still has to come to. -/
def eventsLeft (s : State) : Nat := 2 * pulsesLeft s.mc + (if s.tmr.next = .pulseStart then 1 else 0)

theorem pulsesLeft_advanceIndex {mc : MoveCommand} (going : moveDone mc = false)
    (below : mc.stepIndex < mc.totalSteps) : pulsesLeft (advanceIndex mc) < pulsesLeft mc := by
  unfold moveDone at going
  unfold pulsesLeft
  rw [advanceIndex_direction, advanceIndex_totalSteps]
  unfold advanceIndex
  cases dir : mc.direction with
  | forward =>
    rw [dir] at going
    have not_last := of_decide_eq_false going
    dsimp only
    bv_omega
  | reverse =>
    rw [dir] at going
    have not_last := of_decide_eq_false going
    dsimp only
    bv_omega

/-! ### STEP_TIMER's turn -/

section Timer

variable {s : State}

/-- An index in the table is dispatched; the one index past it that a move of a session can come to faults (R172). -/
theorem Underway.dispatch_cases (h : Underway s) :
    (∃ u, modeDispatch s.mc.mode s = .next u ∧ Dispatched s u) ∨
    ∃ left, modeDispatch s.mc.mode s = .fault (.tableRange s.cfg.table.length left) := by
  have below := BitVec.lt_def.mp h.below
  cases in_mode : s.mc.mode with
  | normal => exact .inl ⟨s, rfl, .kept⟩
  | fromTable =>
    have reach := h.table in_mode
    by_cases inside : s.mc.stepIndex.toNat < s.cfg.table.length
    · have entry := List.getElem?_eq_getElem inside
      have programs := (dispatchFromTable_entry entry).trans
        (timerProgram_next.mpr ⟨entry_long_of_valid h.valid entry, rfl⟩)
      exact .inl ⟨_, programs, dispatchFromTable_dispatched programs⟩
    · have past : s.mc.stepIndex.toNat = s.cfg.table.length := by omega
      exact .inr ⟨s, past ▸ dispatchFromTable_outside past.ge⟩
  | raster =>
    have fits := h.raster in_mode
    have inside : scanIndex s.mc.scanlineOffset s.mc.stepIndex < s.cfg.scanCap.toNat := by
      rw [scanIndex]
      omega
    have draws : dispatchRaster s = .next _ := readScan_next.mpr ⟨inside, rfl⟩
    exact .inl ⟨_, draws, dispatchRaster_dispatched draws⟩
  | reserved => exact absurd in_mode h.mode

/-- A dispatch writes nothing that concerns the move. -/
theorem Dispatched.keeps {u : State} (h : Dispatched s u) :
    u.cfg = s.cfg ∧ u.mc = s.mc ∧ u.running = s.running ∧ u.tmr.run = s.tmr.run ∧ u.agenda = s.agenda := by
  cases h <;> exact ⟨rfl, rfl, rfl, rfl, rfl⟩

/-- A pulse that is not the last leaves the move active, at its next index. -/
theorem Underway.end_pulse (h : Underway s) (going : moveDone s.mc = false) : Underway (endPulse s) where
  valid := h.valid
  moving := h.moving
  runs := h.runs
  waits := h.waits
  mode := by simpa using h.mode
  below := by simpa using advanceIndex_lt going h.below
  table := by simpa using h.table
  raster := by simpa using h.raster

/-- STEP_TIMER's turn ends the move, or brings it nearer to its end, or faults past the table. -/
theorem Underway.timerStep_cases (h : Underway s) :
    (∃ t, timerStep s = .next t ∧ (t.running = false ∨ (Underway t ∧ eventsLeft t < eventsLeft s))) ∨
    ∃ left, timerStep s = .fault (.tableRange s.cfg.table.length left) := by
  cases due : s.tmr.next with
  | pulseStart =>
    refine .inl ⟨_, timerStep_startsPulse h.runs due, .inr ⟨h.congr rfl rfl rfl rfl rfl, ?_⟩⟩
    simp [eventsLeft, due]
  | pulseEnd =>
    rw [timerStep_endsPulse h.runs due]
    by_cases done : moveDone s.mc = true
    · exact .inl ⟨_, pulseEndEvent_next.mpr (.inl ⟨done, rfl⟩), .inl rfl⟩
    · have going : moveDone s.mc = false := Bool.eq_false_iff.mpr done
      have ended := h.end_pulse going
      have dispatches := ended.dispatch_cases
      rw [endPulse_mc, advanceIndex_mode] at dispatches
      obtain ⟨u, dispatches, dispatched⟩ | ⟨left, faults⟩ := dispatches
      · obtain ⟨cfg, mc, running, run, agenda⟩ := dispatched.keeps
        refine .inl ⟨_, pulseEndEvent_next.mpr (.inr ⟨going, u, dispatches, rfl⟩), .inr
          ⟨ended.congr cfg mc running run agenda, ?_⟩⟩
        have nearer := pulsesLeft_advanceIndex going h.below
        simp only [eventsLeft, mc, endPulse_mc, due, if_true, reduceCtorEq, if_false]
        omega
      · refine .inr ⟨left, ?_⟩
        rw [pulseEndEvent, if_neg done, faults, andThen_fault]
        rfl

end Timer

/-! ### Another agent's turn -/

/-- During a move that FOREGROUND waits for, the other agents do no more than receive a byte. -/
theorem Underway.takeTurn_other {c : Turn} {s : State} (h : Underway s) (other : c ≠ .timer) :
    ∃ bytes, takeTurn c s = .next { s with rx := bytes } := by
  obtain ⟨rest, pending⟩ : ∃ rest, s.agenda = .wait :: rest := by
    obtain ⟨rest, same⟩ := List.head?_eq_some_iff.mp h.waits
    exact ⟨rest, same⟩
  cases c with
  | foreground => exact ⟨s.rx, stepAs_foreground_wait_running pending h.moving⟩
  | timer => exact absurd rfl other
  | host b => exact ⟨s.rx ++ [b], rfl⟩
  | timeout =>
    have outside_message : insideMessage s = false := by simp [insideMessage, pending]
    have no_line : readingLine s = false := by simp [readingLine, pending]
    refine ⟨s.rx, congrArg Host.Outcome.next ?_⟩
    simp [timeoutStep, outside_message, no_line]

/-! ### The move finishes -/

/-- What decreases at every step of a move: the events left, then the turns that are prescribed, then the patience. -/
def moveMeasure (s : State) : ℕ ×ₗ ℕ ×ₗ ℕ := toLex (eventsLeft s, toLex (s.turns.length, patienceLeft s))

/-- Another agent's turn leaves the move as it is and uses up a prescribed turn or some patience. -/
theorem Underway.step_other {s : State} (h : Underway s) (other : nextTurn s ≠ .timer) :
    ∃ t, step s = .next t ∧ Underway t ∧ moveMeasure t < moveMeasure s := by
  obtain ⟨bytes, takes⟩ := h.after_choice.takeTurn_other other
  refine ⟨_, takes, h.after_choice.congr rfl rfl rfl rfl rfl, ?_⟩
  have same_events : eventsLeft { afterChoice s with rx := bytes } = eventsLeft s := by simp [eventsLeft]
  rw [moveMeasure, moveMeasure, same_events]
  refine Prod.Lex.toLex_lt_toLex.mpr (.inr ⟨rfl, Prod.Lex.toLex_lt_toLex.mpr ?_⟩)
  cases free : s.turns with
  | nil =>
    obtain ⟨turns, used⟩ := patienceLeft_of_schedule (t := { afterChoice s with rx := bytes }) h.runs free other rfl
    exact .inr ⟨congrArg List.length turns, Nat.lt_of_succ_le used.le⟩
  | cons c rest =>
    left
    simp [afterChoice, free]

/-- Every step of a move ends it, or brings it nearer to its end, or faults past the table. -/
theorem Underway.step_cases {s : State} (h : Underway s) :
    (∃ t, step s = .next t ∧ (t.running = false ∨ (Underway t ∧ moveMeasure t < moveMeasure s))) ∨
    ∃ left, step s = .fault (.tableRange s.cfg.table.length left) := by
  by_cases timer : nextTurn s = .timer
  · have takes : step s = timerStep (afterChoice s) := by rw [step_eq, timer, takeTurn]
    have same_events : eventsLeft (afterChoice s) = eventsLeft s := by simp [eventsLeft]
    have event := h.after_choice.timerStep_cases
    rw [← takes, same_events, afterChoice_cfg] at event
    exact event.imp_left fun ⟨t, next, outcome⟩ => ⟨t, next, outcome.imp_right fun ⟨active, nearer⟩ =>
      ⟨active, Prod.Lex.toLex_lt_toLex.mpr (.inl nearer)⟩⟩
  · obtain ⟨t, next, active⟩ := h.step_other timer
    exact .inl ⟨t, next, .inr active⟩

theorem Underway.finishes {s : State} (h : Underway s) :
    ∃ n, (∃ t : State, Host.Core.run Sys2Proof.core n s = .next t ∧ t.running = false) ∨
      (∃ left : State, Host.Core.run Sys2Proof.core n s = .fault (.tableRange s.cfg.table.length left)) := by
  generalize measure_eq : moveMeasure s = m
  induction m using WellFoundedLT.induction generalizing s with
  | ind m ih =>
    subst measure_eq
    obtain ⟨t, next, idle | ⟨active, nearer⟩⟩ | ⟨left, faults⟩ := h.step_cases
    · exact ⟨1, .inl ⟨t, run_succ_of_next next 0, idle⟩⟩
    · obtain ⟨n, outcome⟩ := ih _ nearer active rfl
      rw [← run_succ_of_next next, noStepChangesTheTable s t next] at outcome
      exact ⟨n + 1, outcome⟩
    · exact ⟨1, .inr ⟨left, run_one_of_fault faults⟩⟩

/-- Settles O58: the patience of an enabled event runs out, and a move of a session has finitely many events left. -/
theorem enabledTimerEventsOccur : Obligations.EnabledTimerEventsOccur := by
  refine ⟨fun s inv runs free => ?_, fun s inv moving => (underway_of_sessionInv inv moving).finishes⟩
  obtain ⟨timer, -⟩ := inv
  obtain ⟨n, within, outcome⟩ := eventWithin_patienceLeft timer runs free
  exact ⟨n, within.trans (Nat.sub_le ..), outcome⟩

end Sys2Proof.Machine

/-! SUPPORT. What the operations of the job sequencer answer up to their next wait (R123, R157, R168, R169), and how
FOREGROUND leaves each phase (R237). With the statements O34, O35 and O47. -/

namespace Sys2Proof.Machine

/-! ### The laser -/

section Laser

variable {s : State} {v : Byte}

theorem exec_laserPreload_idle (idle : s.running = false) :
    exec (.laserPreload v) s = .next { s with pwm := { s.pwm with duty := v } } :=
  preload_next.mpr ⟨idle, rfl⟩

theorem exec_laserEnable_idle (idle : s.running = false) : exec .laserEnable s = .next (setOutput true s) :=
  writeOutput_next.mpr ⟨idle, rfl⟩

theorem preload_moving (moving : s.running = true) : preload v s = .fault (.singleWriterDuty s) := if_pos moving

theorem writeOutput_moving {on : Bool} (moving : s.running = true) :
    writeOutput on s = .fault (.singleWriterOutput s) :=
  if_pos moving

end Laser

/-- Settles O34: the single write of each operation, and the fault of its guard. -/
theorem laserOperations : Obligations.LaserOperations := fun _ _ =>
  ⟨fun idle => ⟨exec_laserPreload_idle idle, exec_laserEnable_idle idle, exec_laserDisable_idle idle⟩,
    fun moving => ⟨preload_moving moving, writeOutput_moving moving, writeOutput_moving moving⟩⟩

/-! ### The first pixel of a raster move -/

section FirstPixel

variable {s : State}

/-- The read of the first pixel can only use up a free value (U9). -/
theorem firstPixel_eq (i : Nat) (s : State) :
    firstPixel i s =
      { s with
        pwm := { duty := scanValue i s, run := true, connected := true }
        fresh := (scanTouch i s).fresh } := by
  rw [firstPixel, scanTouch_eq]

theorem waiting_eq (ts : List Task) (p : JobPhase) (s : State) :
    waiting ts p s =
      { s with
        job := if s.job.phase = .none then s.job else { s.job with phase := p }
        agenda := ts ++ s.agenda } := by
  rw [← waiting_job ts p s]
  rfl

theorem waiting_in_job {ts : List Task} {p : JobPhase} (in_job : s.job.phase ≠ .none) :
    waiting ts p s = { s with job := { s.job with phase := p }, agenda := ts ++ s.agenda } := by
  rw [waiting_eq, if_neg in_job]

/-- The first index served lies in the segment (R64, R157). -/
theorem firstIndex_lt {w offset : U16} {dir : Direction} {n : Nat} (steps : w ≠ 0) (fits : offset.toNat + w.toNat ≤ n) :
    scanIndex offset (startIndex dir w) < n :=
  (Nat.add_lt_add_left (BitVec.lt_def.mp (startIndex_lt steps)) offset.toNat).trans_le fits

end FirstPixel

/-- Settles O35: the byte read and the counter of free values after the read are the witnesses. -/
theorem rasterMoveBeginsWithTheFirstPixel : Obligations.RasterMoveBeginsWithTheFirstPixel := by
  intro s w offset rate dir first idle steps fits long served
  have arms := exec_rasterMove_inside (dir := dir) idle steps long (firstIndex_lt steps fits)
  have first_eq : scanIndex offset (startIndex dir w) = first := by
    cases dir with
    | forward => exact served.symm
    | reverse => rw [scanIndex, startIndex_reverse_toNat steps, served]
  rw [first_eq, firstPixel_eq, waiting_eq] at arms
  refine ⟨scanValue first s, (scanTouch first s).fresh, fun c written => ?_, fun unwritten => ?_, arms.trans ?_⟩
  · rw [scanTouch_of_written written, scanValue_of_written written]
    exact ⟨rfl, rfl⟩
  · rw [scanTouch_of_unwritten unwritten]
  · cases dir <;> rfl

/-! ### Arming a move and waiting for it -/

section ArmAndWait

variable {mode : MoveMode} {dir : Direction} {total delay offset : U16} {ts : List Task} {p : JobPhase} {s t : State}

/-- The end of every operation that waits: the move armed, its phase marked, the wait and what follows it pending. -/
theorem armMove_waiting :
    (andThen (armMove mode dir total delay offset s) fun u => .next (push ts (markPhase p u))) = .next t ↔
      s.running = false ∧ total ≠ 0 ∧ s.cfg.pulseWidth < delay ∧
      t = waiting ts p (launch (populate mode dir total delay offset s)) := by
  simp only [andThen_eq_next, push_markPhase, Host.Outcome.next.injEq, @eq_comm _ _ t]
  constructor
  · rintro ⟨u, arms, rfl⟩
    obtain ⟨idle, steps, long, rfl⟩ := armMove_next.mp arms
    exact ⟨idle, steps, long, rfl⟩
  · rintro ⟨idle, steps, long, rfl⟩
    exact ⟨_, armMove_eq idle steps long, rfl⟩

theorem moveAndWait_waiting :
    (andThen (moveAndWait mode dir total delay offset s) fun u => .next (markPhase p u)) = .next t ↔
      s.running = false ∧ total ≠ 0 ∧ s.cfg.pulseWidth < delay ∧
      t = waiting [.wait] p (launch (populate mode dir total delay offset s)) := by
  rw [← armMove_waiting, moveAndWait, andThen_assoc]
  simp only [andThen_next, markPhase_push, push_markPhase]

end ArmAndWait

/-! ### The operations of the ramps -/

section Ramps

variable {rate padSteps : U16} {s t : State}

/-- `accelerate` up to its wait (R168). -/
theorem exec_accelerate_next :
    exec (.accelerate rate padSteps) s = .next t ↔
      ∃ d, s.cfg.table[0]? = some d ∧ s.running = false ∧ (scanRamp rate s).job.k + 1 ≠ 0 ∧ s.cfg.pulseWidth < d ∧
        t = waiting [.wait, .cruise rate padSteps] .accelRamp
          (launch (populate .fromTable .forward ((scanRamp rate s).job.k + 1) d 0 (scanRamp rate s))) := by
  change execAccelerate rate padSteps s = .next t ↔ _
  simp only [execAccelerate, readTable_next, armMove_waiting]
  rfl

/-- The cruise of `accelerate` (R168), when the ramp is shorter than the padding. -/
theorem cruise_flat (shorter : s.job.k < padSteps) (idle : s.running = false) (long : s.cfg.pulseWidth < rate) :
    cruise rate padSteps s =
      .next (waiting [.wait] .accelFlat (launch (populate .normal .forward (padSteps - s.job.k) rate 0 s))) := by
  have steps : padSteps - s.job.k ≠ 0 := by bv_omega
  rw [cruise, if_pos shorter]
  exact moveAndWait_waiting.mpr ⟨idle, steps, long, rfl⟩

theorem cruise_none (no_flat : padSteps ≤ s.job.k) : cruise rate padSteps s = .next s :=
  if_neg (BitVec.not_lt.mpr no_flat)

/-- The ramp of `decelerate` (R169). -/
theorem decelRamp_next :
    decelRamp s = .next t ↔
      ∃ d, s.cfg.table[s.job.k.toNat]? = some d ∧ s.running = false ∧ s.job.k + 1 ≠ 0 ∧ s.cfg.pulseWidth < d ∧
        t = rampArmed d s := by
  simp only [decelRamp, readTable_next, moveAndWait_waiting]
  rfl

/-- `advance_secondary` with a pitch (R235), up to its wait. -/
theorem exec_advanceSecondary_next (pitch : s.jp.pitch ≠ 0) :
    exec .advanceSecondary s = .next t ↔
      s.running = false ∧ s.cfg.pulseWidth < s.jp.velocity ∧
      t = waiting [.wait] .pitch
        (launch (populate .normal .forward s.jp.pitch s.jp.velocity 0 { s with axis := .y, physDir := .pos })) := by
  change execAdvanceSecondary s = .next t ↔ _
  rw [execAdvanceSecondary, if_neg pitch, andThen_eq_next]
  constructor
  · rintro ⟨u, latches, flat⟩
    obtain ⟨idle, rfl⟩ := setLatches_next.mp latches
    obtain ⟨-, -, long, rfl⟩ := moveAndWait_waiting.mp flat
    exact ⟨idle, long, rfl⟩
  · rintro ⟨idle, long, rfl⟩
    exact ⟨_, setLatches_next.mpr ⟨idle, rfl⟩, moveAndWait_waiting.mpr ⟨idle, pitch, long, rfl⟩⟩

end Ramps

/-! ### FOREGROUND goes on -/

section Resume

variable {task : Task} {rest : List Task} {s u : State}

/-- A task that arms a move is the last of the step (R237). -/
theorem resume_task_moving (does : runTask task { s with agenda := rest } = .next u) (moving : u.running = true) :
    resume (task :: rest) s = .next u := by
  rw [resume_cons, does, andThen_next, moving]
  rfl

theorem resume_task_idle (does : runTask task { s with agenda := rest } = .next u) (idle : u.running = false)
    (no_line : task ≠ .lineRead) : resume (task :: rest) s = resume rest u := by
  rw [resume_cons, does, andThen_next, idle]
  simp [no_line]

theorem resume_cruise_flat {rate padSteps : U16} (shorter : s.job.k < padSteps) (idle : s.running = false)
    (long : s.cfg.pulseWidth < rate) :
    resume (.cruise rate padSteps :: rest) s =
      .next (waiting [.wait] .accelFlat
        (launch (populate .normal .forward (padSteps - s.job.k) rate 0 { s with agenda := rest }))) :=
  resume_task_moving (cruise_flat (s := { s with agenda := rest }) shorter idle long) rfl

theorem resume_cruise_none {rate padSteps : U16} (no_flat : padSteps ≤ s.job.k) (idle : s.running = false) :
    resume (.cruise rate padSteps :: rest) s = resume rest { s with agenda := rest } :=
  resume_task_idle (cruise_none (s := { s with agenda := rest }) no_flat) idle nofun

end Resume

/-! ### The rows of the phase table -/

section Rows

variable {s : State}

theorem foregroundStep_nil (nothing_pending : s.agenda = []) : foregroundStep s = sequencerStep s := by
  rw [foregroundStep, nothing_pending]

theorem sequencerStep_reqLine (in_phase : s.job.phase = .reqLine) :
    sequencerStep s =
      .next { s with tx := s.tx ++ [0x23, 0x44], job := { s.job with col := 0, phase := .readLine } } := by
  have in_job : (reply .lineReady s).job.phase ≠ .none := in_phase ▸ nofun
  rw [sequencerStep, in_phase]
  change execReadLine (reply .lineReady s) = _
  rw [execReadLine, if_neg in_job]
  rfl

theorem sequencerStep_readLine (in_phase : s.job.phase = .readLine) :
    sequencerStep s = if lineWanted s then readByte s else beginScanline s := by
  rw [sequencerStep, in_phase]

theorem beginScanline_eq (idle : s.running = false) :
    beginScanline s =
      exec (.accelerate s.jp.velocity s.jp.rampLen) { s with axis := .x, physDir := physOf (currentDir s) } := by
  rw [beginScanline, setLatches_next.mpr ⟨idle, rfl⟩, andThen_next]

theorem leavePhase_accelerated (in_phase : s.job.phase = .accelRamp ∨ s.job.phase = .accelFlat) :
    leavePhase s = exec (.rasterMove s.jp.outWidth 0 (currentDir s) s.jp.velocity) s := by
  obtain in_phase | in_phase := in_phase <;> rw [leavePhase, in_phase]

theorem leavePhase_raster (in_phase : s.job.phase = .raster) :
    leavePhase s = exec (.decelerate s.jp.velocity s.jp.rampLen) s := by
  rw [leavePhase, in_phase]

theorem leavePhase_decelRamp (in_phase : s.job.phase = .decelRamp) :
    leavePhase s = if s.jp.pitch = 0 then .next (nextLine s) else exec .advanceSecondary s := by
  rw [leavePhase, in_phase]

theorem leavePhase_pitch (in_phase : s.job.phase = .pitch) : leavePhase s = .next (nextLine s) := by
  rw [leavePhase, in_phase]

end Rows

/-- Settles O47: each row is the resumption of what is pending in the phase, up to the call that the phase is left with. -/
theorem sequencerCallsTheOperations : Obligations.SequencerCallsTheOperations := by
  intro s dir parity
  have dir_eq : currentDir s = dir := parity.symm
  subst dir_eq
  refine ⟨?request, ?accelerate, fun rate padSteps => ?ramped, ?cruised, ?drawn, fun d => ?slowed, ?secondary⟩
  case request =>
    intro in_phase nothing_pending
    exact (foregroundStep_nil nothing_pending).trans (sequencerStep_reqLine in_phase)
  case accelerate =>
    intro in_phase nothing_pending whole idle
    have complete : lineWanted s = false := decide_eq_false (BitVec.not_lt.mpr whole)
    calc stepAs .foreground s
      _ = sequencerStep s := foregroundStep_nil nothing_pending
      _ = beginScanline s := by rw [sequencerStep_readLine in_phase, complete]; rfl
      _ = _ := beginScanline_eq idle
  case ramped =>
    intro in_phase pending idle
    have in_job : s.job.phase ≠ .none := in_phase ▸ nofun
    rw [stepAs_foreground_wait_idle pending idle]
    refine ⟨fun shorter long => ?_, fun no_flat => ?_⟩
    · refine (resume_cruise_flat (s := { s with agenda := _ }) shorter idle long).trans ?_
      rw [waiting_in_job]
      · rfl
      · exact in_job
    · exact (resume_cruise_none (s := { s with agenda := _ }) no_flat idle).trans
        (leavePhase_accelerated (s := { s with agenda := [] }) (.inl in_phase))
  case cruised =>
    intro in_phase pending idle
    exact (stepAs_foreground_wait_idle pending idle).trans
      (leavePhase_accelerated (s := { s with agenda := [] }) (.inr in_phase))
  case drawn =>
    intro in_phase pending idle
    calc stepAs .foreground s
      _ = resume [.laserOff] { s with agenda := [.laserOff] } := stepAs_foreground_wait_idle pending idle
      _ = leavePhase (setOutput false { s with agenda := [] }) := resume_laserOff (s := { s with agenda := _ }) idle
      _ = _ := leavePhase_raster (s := setOutput false { s with agenda := [] }) in_phase
  case slowed =>
    intro in_phase pending idle short entry long
    have in_job : s.job.phase ≠ .none := in_phase ▸ nofun
    have inside := (List.getElem?_eq_some_iff.mp entry).1
    have steps : s.job.k + 1 ≠ 0 := by bv_omega
    have last_index : startIndex .reverse (s.job.k + 1) = s.job.k := BitVec.add_sub_cancel ..
    have arms := decelRamp_next (s := { s with agenda := [] }).mpr ⟨d, entry, idle, steps, long, rfl⟩
    calc stepAs .foreground s
      _ = resume [.decelRamp] { s with agenda := [.decelRamp] } := stepAs_foreground_wait_idle pending idle
      _ = .next (rampArmed d { s with agenda := [] }) :=
        resume_task_moving (task := .decelRamp) (s := { s with agenda := _ }) arms rfl
      _ = _ := by
        rw [rampArmed, waiting_in_job]
        · simp only [populate, last_index]
          rfl
        · exact in_job
  case secondary =>
    intro in_phase pending idle pitch
    exact (stepAs_foreground_wait_idle pending idle).trans
      ((leavePhase_decelRamp (s := { s with agenda := [] }) in_phase).trans (if_neg pitch))

end Sys2Proof.Machine

/-! SUPPORT. The session invariants (R156, R231, R237): a session is in one of two kinds of state. Between moves FOREGROUND
has nothing pending and the laser is off (`BetweenMoves`); in a phase that waits for a move, the tasks are those of the phase
and the move is the one the phase armed (`sequenced_waiting`). With the statement O59. -/

namespace Sys2Proof.Machine

/-! ### The invariants of the sequencer -/

/-- The start checks of the job hold and its line is one of the image (R231, R237). -/
def JobFits (s : State) : Prop :=
  s.jp.outWidth ≠ 0 ∧ s.cfg.pulseWidth < s.jp.velocity ∧ s.jp.backlash = 0 ∧ s.job.line < s.jp.imageHeight

/-- `job.k` is the length of the ramp of the job's velocity (R166). -/
def Scanned (s : State) : Prop := s.job.k.toNat = rampLength s.cfg.table s.jp.velocity

/-- The move in MoveCommand is of the mode and extent of the phase (R237). -/
def MoveFits (s : State) : Prop :=
  phaseMode s.job.phase = some s.mc.mode ∧
  (s.mc.mode = .fromTable → s.mc.totalSteps.toNat = s.job.k.toNat + 1) ∧
  (s.mc.mode = .raster → s.mc.totalSteps = s.jp.outWidth ∧ s.mc.scanlineOffset = 0)

/-- What the operation of a phase does after its wait (R157, R168, R169). -/
def afterWait (jp : JobParameters) : JobPhase → List Task
  | .accelRamp => [.cruise jp.velocity jp.rampLen]
  | .raster => [.laserOff]
  | .decelFlat => [.decelRamp]
  | .none | .reqLine | .readLine | .accelFlat | .decelRamp | .pitch => []

/-- The tasks pending in a phase: none, or a wait and what follows it. -/
def pendingIn (jp : JobParameters) (p : JobPhase) : List Task := if drawing p then .wait :: afterWait jp p else []

/-- The phase says which tasks are pending. -/
theorem agendaFits_iff {jp : JobParameters} {p : JobPhase} {ts : List Task} :
    agendaFits jp p ts = true ↔ ts = pendingIn jp p := by
  constructor
  · intro fits
    cases p with
    | none | reqLine | readLine => match ts, fits with | [], _ => rfl
    | accelFlat | decelRamp | pitch => match ts, fits with | [.wait], _ => rfl
    | raster => match ts, fits with | [.wait, .laserOff], _ => rfl
    | decelFlat => match ts, fits with | [.wait, .decelRamp], _ => rfl
    | accelRamp =>
      match ts, fits with
      | [.wait, .cruise rate padSteps], fits =>
        obtain ⟨same_rate, same_pad⟩ := Bool.and_eq_true_iff.mp fits
        rw [of_decide_eq_true same_rate, of_decide_eq_true same_pad]
        rfl
  · rintro rfl
    cases p with
    | accelRamp => exact Bool.and_eq_true_iff.mpr ⟨decide_eq_true rfl, decide_eq_true rfl⟩
    | _ => rfl

/-- The part of `SessionInv` that is about the job sequencer. -/
structure Sequenced (s : State) : Prop where
  pending : s.agenda = pendingIn s.jp s.job.phase
  checked : s.job.phase ≠ .none → JobFits s
  scanned : drawing s.job.phase = true → Scanned s
  move : s.running = true → MoveFits s
  output : s.pwm.connected = true → s.job.phase = .raster

section Invariant

variable {s t : State}

theorem pendingIn_of_drawing {jp : JobParameters} {p : JobPhase} (drawn : drawing p = true) :
    pendingIn jp p = .wait :: afterWait jp p :=
  if_pos drawn

/-- A move is active only in a phase that waits for one. -/
theorem Sequenced.drawing_of_moving (h : Sequenced s) (moving : s.running = true) : drawing s.job.phase = true := by
  obtain ⟨in_phase, -⟩ := h.move moving
  exact drawing_of_phaseMode in_phase

theorem Sequenced.waits (h : Sequenced s) (drawn : drawing s.job.phase = true) :
    s.agenda = .wait :: afterWait s.jp s.job.phase :=
  h.pending.trans (pendingIn_of_drawing drawn)

theorem sessionInv_iff : SessionInv s ↔ s.cfg.Valid ∧ EngineInv s ∧ Sequenced s := by
  constructor
  · rintro ⟨valid, engine, fits, checked, scanned, move, output⟩
    refine ⟨valid, engine, agendaFits_iff.mp fits, checked, scanned, fun moving => ?_, output⟩
    obtain ⟨-, in_phase, table, raster⟩ := move moving
    exact ⟨in_phase, table, raster⟩
  · rintro ⟨valid, engine, h⟩
    refine ⟨valid, engine, agendaFits_iff.mpr h.pending, h.checked, h.scanned, fun moving => ?_, h.output⟩
    have waits := congrArg List.head? (h.waits (h.drawing_of_moving moving))
    obtain ⟨in_phase, table, raster⟩ := h.move moving
    exact ⟨waits, in_phase, table, raster⟩

/-- What the invariants of the sequencer speak of, but for whether a move is active. -/
def sequencing (s : State) :
    Params × JobParameters × Sequencer × List Task × Bool × ModeReg × U16 × U16 :=
  (s.cfg, s.jp, s.job, s.agenda, s.pwm.connected, s.mc.mode, s.mc.totalSteps, s.mc.scanlineOffset)

theorem Sequenced.congr (h : Sequenced s) (same : sequencing t = sequencing s)
    (moving : t.running = true → s.running = true) : Sequenced t := by
  simp only [sequencing, Prod.mk.injEq] at same
  obtain ⟨cfg, jp, job, agenda, connected, mode, total, offset⟩ := same
  refine ⟨?_, ?_, ?_, fun active => ?_, ?_⟩
  · simpa only [agenda, jp, job] using h.pending
  · simpa only [JobFits, cfg, jp, job] using h.checked
  · simpa only [Scanned, cfg, jp, job] using h.scanned
  · simpa only [MoveFits, jp, job, mode, total, offset] using h.move (moving active)
  · simpa only [connected, job] using h.output

end Invariant

/-! ### Between moves -/

/-- No move is active, FOREGROUND has nothing pending and the laser is off. -/
structure BetweenMoves (s : State) : Prop where
  idle : s.running = false
  nothing_pending : s.agenda = []
  off : s.pwm.connected = false
  checked : s.job.phase ≠ .none → JobFits s

section BetweenMoves

variable {s t : State}

/-- FOREGROUND may stop between moves in the phases that wait for none (R237). -/
theorem BetweenMoves.sequenced (h : BetweenMoves s) (undrawn : drawing s.job.phase = false) : Sequenced s where
  pending := by rw [h.nothing_pending, pendingIn, undrawn]; rfl
  checked := h.checked
  scanned drawn := nomatch drawn.symm.trans undrawn
  move moving := nomatch moving.symm.trans h.idle
  output on := nomatch on.symm.trans h.off

/-- In the phases that wait for no move, FOREGROUND is between moves. -/
theorem Sequenced.betweenMoves (h : Sequenced s) (undrawn : drawing s.job.phase = false) : BetweenMoves s where
  idle := Bool.eq_false_iff.mpr fun moving => nomatch (h.drawing_of_moving moving).symm.trans undrawn
  nothing_pending := by rw [h.pending, pendingIn, undrawn]; rfl
  off := Bool.eq_false_iff.mpr fun on => by simp [h.output on, drawing] at undrawn
  checked := h.checked

/-- Outside a job the sequencer asks no more than to be between moves. -/
theorem BetweenMoves.sequenced_of_no_job (h : BetweenMoves s) (idle : t.running = s.running)
    (pending : t.agenda = s.agenda) (off : t.pwm.connected = s.pwm.connected) (no_job : t.job.phase = .none) : Sequenced t :=
  have between : BetweenMoves t :=
    ⟨idle.trans h.idle, pending.trans h.nothing_pending, off.trans h.off, fun in_job => absurd no_job in_job⟩
  between.sequenced (by rw [no_job]; rfl)

/-- A move of a line is armed, in a job that draws it: FOREGROUND waits for the move in its phase (R237). -/
theorem sequenced_waiting {mode : MoveMode} {dir : Direction} {total delay offset : U16} {p : JobPhase}
    (nothing_pending : s.agenda = []) (in_job : s.job.phase ≠ .none) (checked : JobFits s) (scanned : Scanned s)
    (in_phase : phaseMode p = some (modeReg mode))
    (table : modeReg mode = .fromTable → total.toNat = s.job.k.toNat + 1)
    (raster : modeReg mode = .raster → total = s.jp.outWidth ∧ offset = 0)
    (output : s.pwm.connected = true → p = .raster) :
    Sequenced (waiting (.wait :: afterWait s.jp p) p (launch (populate mode dir total delay offset s))) := by
  rw [waiting_in_job]
  · refine ⟨?_, fun _ => checked, fun _ => scanned, fun _ => ⟨in_phase, table, raster⟩, output⟩
    exact (congrArg _ nothing_pending).trans
      ((List.append_nil _).trans (pendingIn_of_drawing (drawing_of_phaseMode in_phase)).symm)
  · exact in_job

end BetweenMoves

/-! ### The operations that the sequencer calls -/

section Calls

variable {s t : State}

/-- A ramp of a table of at most 65534 entries has a 16-bit step count (R8). -/
theorem Scanned.steps_toNat (scanned : Scanned s) (valid : s.cfg.Valid) :
    (s.job.k + 1).toNat = s.job.k.toNat + 1 := by
  obtain ⟨-, short, -⟩ := valid
  have length : s.job.k.toNat ≤ s.cfg.table.length := scanned ▸ rampLength_le ..
  bv_omega

theorem scanned_scanRamp (valid : s.cfg.Valid) : Scanned (scanRamp s.jp.velocity s) := by
  obtain ⟨-, short, -⟩ := valid
  have length := rampLength_le s.cfg.table s.jp.velocity
  exact (BitVec.toNat_ofNat ..).trans (Nat.mod_eq_of_lt (by omega))

theorem accelerate_sequenced (valid : s.cfg.Valid) (h : BetweenMoves s) (in_job : s.job.phase ≠ .none)
    (calls : exec (.accelerate s.jp.velocity s.jp.rampLen) s = .next t) : Sequenced t := by
  obtain ⟨d, -, -, -, -, rfl⟩ := exec_accelerate_next.mp calls
  have scanned := scanned_scanRamp valid
  exact sequenced_waiting (s := scanRamp s.jp.velocity s) (p := .accelRamp) h.nothing_pending in_job (h.checked in_job)
    scanned rfl (fun _ => scanned.steps_toNat valid) nofun fun on => nomatch on.symm.trans h.off

/-- The flat move of `accelerate` after its ramp (R168). -/
theorem cruise_sequenced {total delay : U16} (h : BetweenMoves s) (in_job : s.job.phase ≠ .none) (scanned : Scanned s) :
    Sequenced (waiting [.wait] .accelFlat (launch (populate .normal .forward total delay 0 s))) :=
  sequenced_waiting (p := .accelFlat) h.nothing_pending in_job (h.checked in_job) scanned rfl nofun nofun
    fun on => nomatch on.symm.trans h.off

theorem rasterMove_sequenced {dir : Direction} (h : BetweenMoves s) (in_job : s.job.phase ≠ .none) (scanned : Scanned s)
    (calls : exec (.rasterMove s.jp.outWidth 0 dir s.jp.velocity) s = .next t) : Sequenced t := by
  have checked := h.checked in_job
  have ⟨width, long, _⟩ := checked
  obtain ⟨inside, -⟩ := readScan_next.mp (show execRasterMove _ _ _ _ _ = _ from calls)
  rw [exec_rasterMove_inside h.idle width long inside, firstPixel_eq] at calls
  cases calls
  exact sequenced_waiting (p := .raster) h.nothing_pending in_job checked scanned rfl nofun (fun _ => ⟨rfl, rfl⟩)
    fun _ => rfl

theorem decelRamp_sequenced (valid : s.cfg.Valid) (h : BetweenMoves s) (in_job : s.job.phase ≠ .none)
    (scanned : Scanned s) (calls : decelRamp s = .next t) : Sequenced t ∧ t.running = true := by
  obtain ⟨d, -, -, -, -, rfl⟩ := decelRamp_next.mp calls
  exact ⟨sequenced_waiting (p := .decelRamp) h.nothing_pending in_job (h.checked in_job) scanned rfl
    (fun _ => scanned.steps_toNat valid) nofun fun on => (nomatch on.symm.trans h.off), rfl⟩

theorem decelerate_sequenced (valid : s.cfg.Valid) (h : BetweenMoves s) (in_job : s.job.phase ≠ .none)
    (calls : exec (.decelerate s.jp.velocity s.jp.rampLen) s = .next t) : Sequenced t := by
  have scanned := scanned_scanRamp valid
  have checked := h.checked in_job
  have ⟨_, long, _⟩ := checked
  have between : BetweenMoves (scanRamp s.jp.velocity s) := ⟨h.idle, h.nothing_pending, h.off, h.checked⟩
  rw [exec_decelerate h.idle long] at calls
  split at calls
  · cases calls
    exact sequenced_waiting (s := scanRamp s.jp.velocity s) (p := .decelFlat) h.nothing_pending in_job checked scanned
      rfl nofun nofun fun on => nomatch on.symm.trans h.off
  · exact (decelRamp_sequenced (s := scanRamp s.jp.velocity s) valid between in_job scanned calls).1

theorem advanceSecondary_sequenced (h : BetweenMoves s) (in_job : s.job.phase ≠ .none) (scanned : Scanned s)
    (pitch : s.jp.pitch ≠ 0) (calls : exec .advanceSecondary s = .next t) : Sequenced t := by
  obtain ⟨-, -, rfl⟩ := (exec_advanceSecondary_next pitch).mp calls
  exact sequenced_waiting (s := { s with axis := .y, physDir := .pos }) (p := .pitch) h.nothing_pending in_job
    (h.checked in_job) scanned rfl nofun nofun fun on => nomatch on.symm.trans h.off

/-- The next line is one of the image, or the job is over (R237, R239). -/
theorem nextLine_sequenced (h : BetweenMoves s) (in_job : s.job.phase ≠ .none) : Sequenced (nextLine s) := by
  unfold nextLine
  split
  · exact h.sequenced_of_no_job rfl rfl rfl rfl
  · next more =>
    obtain ⟨width, long, backlash, line⟩ := h.checked in_job
    have next_line : s.job.line + 1 < s.jp.imageHeight := by bv_omega
    have between : BetweenMoves { s with job := { s.job with line := s.job.line + 1, phase := .reqLine } } :=
      ⟨h.idle, h.nothing_pending, h.off, fun _ => ⟨width, long, backlash, next_line⟩⟩
    exact between.sequenced rfl

end Calls

/-! ### The phases that wait for a move -/

section Waits

variable {s t : State}

/-- What the sequencer does when the operation of a phase returns. -/
theorem leavePhase_sequenced (valid : s.cfg.Valid) (h : BetweenMoves s) (drawn : drawing s.job.phase = true)
    (scanned : Scanned s) (leaves : leavePhase s = .next t) : Sequenced t := by
  have in_job : s.job.phase ≠ .none := fun no_job => by simp [no_job, drawing] at drawn
  have secondary (calls : (if s.jp.pitch = 0 then .next (nextLine s) else exec .advanceSecondary s) = .next t) :
      Sequenced t := by
    split at calls
    · cases calls
      exact nextLine_sequenced h in_job
    · next pitch => exact advanceSecondary_sequenced h in_job scanned pitch calls
  unfold leavePhase at leaves
  cases in_phase : s.job.phase with
  | none | reqLine | readLine => simp [in_phase, drawing] at drawn
  | accelRamp | accelFlat => exact rasterMove_sequenced h in_job scanned (by rwa [in_phase] at leaves)
  | raster => exact decelerate_sequenced valid h in_job (by rwa [in_phase] at leaves)
  | decelFlat | decelRamp => exact secondary (by rwa [in_phase] at leaves)
  | pitch =>
    rw [in_phase] at leaves
    cases leaves
    exact nextLine_sequenced h in_job

/-- The step in which the wait of a phase lifts: the rest of its operation, then what the phase is left with (R237). -/
theorem Sequenced.afterWait_sequenced (h : Sequenced s) (valid : s.cfg.Valid) (idle : s.running = false)
    (drawn : drawing s.job.phase = true)
    (resumes : resume (afterWait s.jp s.job.phase) { s with agenda := afterWait s.jp s.job.phase } = .next t) :
    Sequenced t := by
  have scanned := h.scanned drawn
  have in_job : s.job.phase ≠ .none := fun no_job => by simp [no_job, drawing] at drawn
  have checked := h.checked in_job
  have between (unlit : s.job.phase ≠ .raster) : BetweenMoves { s with agenda := [] } :=
    ⟨idle, rfl, Bool.eq_false_iff.mpr (mt h.output unlit), fun _ => checked⟩
  cases in_phase : s.job.phase with
  | none | reqLine | readLine => simp [in_phase, drawing] at drawn
  | accelFlat | decelRamp | pitch =>
    rw [in_phase] at resumes
    exact leavePhase_sequenced (s := { s with agenda := [] }) valid (between (in_phase ▸ nofun)) drawn scanned resumes
  | accelRamp =>
    have between := between (in_phase ▸ nofun)
    rw [in_phase] at resumes
    by_cases shorter : s.job.k < s.jp.rampLen
    · obtain ⟨-, long, -⟩ := checked
      cases (resume_cruise_flat (s := { s with agenda := _ }) shorter idle long).symm.trans resumes
      exact cruise_sequenced between in_job scanned
    · have leaves :=
        (resume_cruise_none (s := { s with agenda := _ }) (BitVec.not_lt.mp shorter) idle).symm.trans resumes
      exact leavePhase_sequenced (s := { s with agenda := [] }) valid between drawn scanned leaves
  | raster =>
    have dark : BetweenMoves (setOutput false { s with agenda := [] }) := ⟨idle, rfl, rfl, fun _ => checked⟩
    rw [in_phase] at resumes
    have leaves := (resume_laserOff (s := { s with agenda := _ }) idle).symm.trans resumes
    exact leavePhase_sequenced (s := setOutput false { s with agenda := [] }) valid dark drawn scanned leaves
  | decelFlat =>
    rw [in_phase] at resumes
    obtain ⟨u, ramps, -⟩ := andThen_eq_next.mp ((resume_cons ..).symm.trans resumes)
    obtain ⟨sequenced, moving⟩ :=
      decelRamp_sequenced (s := { s with agenda := [] }) valid (between (in_phase ▸ nofun)) in_job scanned ramps
    cases (resume_task_moving (s := { s with agenda := _ }) ramps moving).symm.trans resumes
    exact sequenced

end Waits

/-! ### The phases that wait for no move -/

section NoWait

variable {s t : State}

/-- A job begins with its start checks made (R231). -/
theorem beginJob_sequenced (h : BetweenMoves s) (no_job : s.job.phase = .none) (begins : beginJob s = .next t) :
    Sequenced t := by
  rcases beginJob_cases s with ⟨-, answer⟩ | ⟨-, -, answer⟩ | ⟨-, -, -, answer⟩ | ⟨accepted, backlash, lines, answer⟩ <;>
    cases answer.symm.trans begins
  · exact h.sequenced_of_no_job rfl rfl rfl no_job
  · exact h.sequenced_of_no_job rfl rfl rfl rfl
  · simp only [startRefused, Bool.or_eq_false_iff, decide_eq_false_iff_not, BitVec.not_le] at accepted
    obtain ⟨width, long⟩ := accepted
    have first_line : 0 < s.jp.imageHeight := by bv_omega
    have between : BetweenMoves { reply .ack s with job := { s.job with line := 0, phase := .reqLine } } :=
      ⟨h.idle, h.nothing_pending, h.off, fun _ => ⟨width, long, backlash, first_line⟩⟩
    exact between.sequenced rfl

theorem start_sequenced (h : BetweenMoves s) (no_job : s.job.phase = .none) (starts : execStart s = .next t) :
    Sequenced t := by
  obtain ⟨u, begins, last⟩ := andThen_eq_next.mp starts
  have sequenced := beginJob_sequenced h no_job begins
  cases last
  split
  · exact sequenced.congr rfl id
  · exact sequenced

/-- A set command writes a parameter, the parser and the answer (R194, R195). -/
theorem setCommand_eq (c : Selector) (a : Arg) (s : State) :
    setCommand c a s =
      { s with jp := (setCommand c a s).jp, ps := (setCommand c a s).ps, tx := (setCommand c a s).tx } := by
  rcases setCommand_cases c a s with ⟨-, -, h⟩ | ⟨-, -, h⟩ | ⟨-, h⟩ <;> rw [h] <;> rfl

theorem shortInstr_sequenced {b : Byte} (h : BetweenMoves s) (no_job : s.job.phase = .none)
    (executes : exec (shortInstr b) s = .next t) : Sequenced t := by
  rcases shortInstr_cases b with ⟨-, message⟩ | ⟨-, message⟩ | ⟨-, -, message⟩ <;> rw [message] at executes
  · cases executes
    exact h.sequenced_of_no_job rfl rfl rfl no_job
  · exact start_sequenced h no_job executes
  · cases executes
    exact h.sequenced_of_no_job rfl rfl rfl no_job

/-- Outside a job a byte of the command channel begins one, or writes nothing that a session needs (R192 to R194). -/
theorem parseByte_sequenced {b : Byte} (h : BetweenMoves s) (no_job : s.job.phase = .none)
    (parses : parseByte b s = .next t) : Sequenced t := by
  unfold parseByte at parses
  cases state : s.ps.state with
  | awaitSentinel =>
    rw [state] at parses
    dsimp only at parses
    split at parses <;> cases parses
    · exact h.sequenced_of_no_job rfl rfl rfl no_job
    · unfold badSentinel
      split <;> exact h.sequenced_of_no_job rfl rfl rfl no_job
  | awaitSelector =>
    rw [state] at parses
    dsimp only at parses
    split at parses
    · cases parses
      exact h.sequenced_of_no_job rfl rfl rfl no_job
    · exact shortInstr_sequenced h no_job parses
  | readArg =>
    rw [state] at parses
    dsimp only at parses
    split at parses
    · cases parses
      exact h.sequenced_of_no_job rfl rfl rfl no_job
    · rw [exec_setInstr, setCommand_eq] at parses
      cases parses
      exact h.sequenced_of_no_job rfl rfl rfl no_job

/-- A byte of the line is stored, or none waits (R233). -/
theorem readByte_sequenced (h : BetweenMoves s) (undrawn : drawing s.job.phase = false) (reads : readByte s = .next t) :
    Sequenced t := by
  unfold readByte at reads
  split at reads
  · cases reads
    exact h.sequenced undrawn
  · next b rest _ =>
    obtain ⟨u, stores, last⟩ := andThen_eq_next.mp reads
    obtain ⟨v, writes, stored⟩ := andThen_eq_next.mp ((storeLine_cons b [] s).symm.trans stores)
    obtain ⟨-, -, rfl⟩ := writeScan_next.mp writes
    cases stored
    cases last
    have between : BetweenMoves (byteStored b rest s) := ⟨h.idle, h.nothing_pending, h.off, h.checked⟩
    exact between.sequenced undrawn

/-- The line is read: the ramp is scanned and armed (R232). -/
theorem beginScanline_sequenced (valid : s.cfg.Valid) (h : BetweenMoves s) (in_job : s.job.phase ≠ .none)
    (begins : beginScanline s = .next t) : Sequenced t := by
  rw [beginScanline_eq h.idle] at begins
  have between : BetweenMoves { s with axis := .x, physDir := physOf (currentDir s) } :=
    ⟨h.idle, h.nothing_pending, h.off, h.checked⟩
  exact accelerate_sequenced (s := { s with axis := .x, physDir := physOf (currentDir s) }) valid between in_job begins

/-- FOREGROUND's turn in a phase that waits for no move. -/
theorem sequencerStep_sequenced (valid : s.cfg.Valid) (h : BetweenMoves s) (undrawn : drawing s.job.phase = false)
    (turn : sequencerStep s = .next t) : Sequenced t := by
  cases in_phase : s.job.phase with
  | none =>
    rw [sequencerStep, in_phase] at turn
    cases waiting : s.rx with
    | nil =>
      cases (rxRead_nil waiting).symm.trans turn
      exact h.sequenced undrawn
    | cons b rest =>
      have between : BetweenMoves { s with rx := rest } := ⟨h.idle, h.nothing_pending, h.off, h.checked⟩
      exact parseByte_sequenced between in_phase ((rxRead_cons waiting).symm.trans turn)
  | reqLine =>
    have in_job : s.job.phase ≠ .none := in_phase ▸ nofun
    cases (sequencerStep_reqLine in_phase).symm.trans turn
    have between : BetweenMoves
        { s with tx := s.tx ++ [0x23, 0x44], job := { s.job with col := 0, phase := .readLine } } :=
      ⟨h.idle, h.nothing_pending, h.off, fun _ => h.checked in_job⟩
    exact between.sequenced rfl
  | readLine =>
    rw [sequencerStep_readLine in_phase] at turn
    split at turn
    · exact readByte_sequenced h undrawn turn
    · exact beginScanline_sequenced valid h (in_phase ▸ nofun) turn
  | accelRamp | accelFlat | raster | decelFlat | decelRamp | pitch => simp [in_phase, drawing] at undrawn

end NoWait

/-! ### Every turn -/

section Turns

variable {s t : State}

/-- FOREGROUND holds during a move; otherwise it leaves the phase, or goes on in one that waits for no move (R237). -/
theorem Sequenced.foregroundStep_sequenced (h : Sequenced s) (valid : s.cfg.Valid) (turn : foregroundStep s = .next t) :
    Sequenced t := by
  by_cases drawn : drawing s.job.phase = true
  · have waits := h.waits drawn
    cases moving : s.running with
    | true =>
      cases (stepAs_foreground_wait_running waits moving).symm.trans turn
      exact h
    | false => exact h.afterWait_sequenced valid moving drawn ((stepAs_foreground_wait_idle waits moving).symm.trans turn)
  · have undrawn : drawing s.job.phase = false := Bool.eq_false_iff.mpr drawn
    have between := h.betweenMoves undrawn
    exact sequencerStep_sequenced valid between undrawn ((foregroundStep_nil between.nothing_pending).symm.trans turn)

/-- An event moves the index, the compare registers and the duty, and can only end the move. -/
theorem Sequenced.event_sequenced {e : TimerEvent} (h : Sequenced s) (timer : s.tmr.run = s.running)
    (event : EventEffect s e t) : Sequenced t := by
  have enabled : eventEnabled e s = true := by cases event <;> assumption
  have moving : s.running = true := timer ▸ (eventEnabled_iff.mp enabled).1
  have same : sequencing t = sequencing s := by
    rw [event_frame event]
    rfl
  exact h.congr same fun _ => moving

/-- In a session a line is read in phase READ_LINE only (log 11). -/
theorem Sequenced.phase_of_readingLine (h : Sequenced s) (reading : readingLine s = true) :
    s.job.phase = .readLine := by
  simp only [readingLine, Bool.and_eq_true, Bool.or_eq_true, decide_eq_true_eq] at reading
  obtain ⟨-, ⟨-, in_phase⟩ | line_pending⟩ := reading
  · exact in_phase
  · rw [h.pending, pendingIn] at line_pending
    split at line_pending <;> nomatch line_pending

/-- A Timeout answers, and in a line it ends the job (R191, R233). -/
theorem Sequenced.timeoutStep_sequenced (h : Sequenced s) : Sequenced (timeoutStep s) := by
  unfold timeoutStep
  split
  · exact h
  · split
    · exact h.congr rfl id
    · split
      · next reading =>
        have undrawn : drawing s.job.phase = false := by rw [h.phase_of_readingLine reading]; rfl
        have between := h.betweenMoves undrawn
        unfold lineTimeout
        split
        · exact between.sequenced_of_no_job rfl between.nothing_pending.symm rfl rfl
        · exact h
      · exact h

/-- Every turn keeps the invariants of the sequencer. -/
theorem takeTurn_sequenced {c : Turn} (inv : SessionInv s) (turn : takeTurn c s = .next t) : Sequenced t := by
  obtain ⟨valid, ⟨timer, -⟩, h⟩ := sessionInv_iff.mp inv
  cases c with
  | foreground => exact h.foregroundStep_sequenced valid turn
  | timer =>
    rcases timerStep_effect turn with rfl | ⟨e, event⟩
    · exact h
    · exact h.event_sequenced timer event
  | host b =>
    cases turn
    exact h.congr rfl id
  | timeout =>
    cases turn
    exact h.timeoutStep_sequenced

theorem afterChoice_sessionInv (inv : SessionInv s) : SessionInv (afterChoice s) := by
  unfold afterChoice
  split <;> exact inv

end Turns

/-- Settles O59: the parameters stay, the engine's invariants are O57, and each turn keeps the sequencer's. -/
theorem everyStepKeepsSessionInv : Obligations.EveryStepKeepsSessionInv := by
  intro s t inv next
  obtain ⟨valid, engine, -⟩ := sessionInv_iff.mp inv
  have same_cfg := noStepChangesTheTable s t next
  exact sessionInv_iff.mpr ⟨same_cfg ▸ valid, everyStepKeepsEngineInv s t engine next,
    takeTurn_sequenced (afterChoice_sessionInv inv) next⟩

end Sys2Proof.Machine

/-! SUPPORT. The ramp engine (R166 to R174): what the scan finds, a whole `accelerate`, and a rate that the whole table
reaches. With the statements O37, O39 to O41, O43 and O46. -/

namespace Sys2Proof.Machine

/-! ### The scan -/

section Scan

variable {table : List U16} {rate : U16}

/-- The entries that the scan has counted are at least the rate (R166). -/
theorem entry_of_lt_rampLength {j : Nat} (counted : j < rampLength table rate) :
    ∃ d, table[j]? = some d ∧ rate ≤ d := by
  induction table generalizing j with
  | nil => nomatch counted
  | cons d ds ih =>
    rw [rampLength] at counted
    split at counted
    · next reached =>
      cases j with
      | zero => exact ⟨d, rfl, reached⟩
      | succ j => exact ih (Nat.lt_of_succ_lt_succ counted)
    · nomatch counted

/-- The entry at which the scan has stopped is below the rate (R166). -/
theorem entry_at_rampLength (inside : rampLength table rate < table.length) :
    ∃ d, table[rampLength table rate]? = some d ∧ d < rate := by
  induction table with
  | nil => nomatch inside
  | cons d ds ih =>
    rw [rampLength] at inside ⊢
    split
    · next reached =>
      rw [if_pos reached] at inside
      exact ih (Nat.lt_of_succ_lt_succ inside)
    · next below => exact ⟨d, rfl, BitVec.not_le.mp below⟩

end Scan

/-- Settles O37: the entries that the scan counts, and the one that ends it. -/
theorem rampScanFindsTheLargestPrefix : Obligations.RampScanFindsTheLargestPrefix := by
  intro s rate _
  exact ⟨rampLength s.cfg.table rate, rfl, rampLength_le .., fun _ => entry_of_lt_rampLength, entry_at_rampLength⟩

/-- One more than the scan result is a step count of 16 bits (R8). -/
theorem scanRamp_steps {s : State} (rate : U16) (short : s.cfg.table.length ≤ 65534) :
    ((scanRamp rate s).job.k + 1).toNat = rampLength s.cfg.table rate + 1 ∧ (scanRamp rate s).job.k + 1 ≠ 0 := by
  have length := rampLength_le s.cfg.table rate
  have count : (scanRamp rate s).job.k.toNat = rampLength s.cfg.table rate :=
    (BitVec.toNat_ofNat ..).trans (Nat.mod_eq_of_lt (by omega))
  rw [← count] at length ⊢
  exact ⟨by bv_omega, by bv_omega⟩

/-! ### The first wait of each operation -/

/-- Settles O39: the table has a first entry, and the ramp some steps. -/
theorem accelerateArmsTheRamp : Obligations.AccelerateArmsTheRamp := by
  intro s rate padSteps d k idle short entry long scanned
  obtain ⟨-, steps⟩ := scanRamp_steps rate short
  subst scanned
  refine (exec_accelerate_next.mpr ⟨d, entry, idle, steps, long, rfl⟩).trans ?_
  rw [waiting_eq]
  rfl

theorem exec_decelerate_flat {s : State} {rate padSteps : U16} (shorter : (scanRamp rate s).job.k < padSteps)
    (idle : s.running = false) (long : s.cfg.pulseWidth < rate) :
    exec (.decelerate rate padSteps) s =
      .next (flatArmed (padSteps - (scanRamp rate s).job.k) rate (scanRamp rate s)) :=
  (exec_decelerate idle long).trans (if_pos shorter)

/-- `decelerate` with a ramp at least as long as the padding begins with it (R169). -/
theorem exec_decelerate_ramp {s : State} {rate padSteps : U16} (no_flat : padSteps ≤ (scanRamp rate s).job.k) :
    exec (.decelerate rate padSteps) s = decelRamp (scanRamp rate s) :=
  if_neg (BitVec.not_lt.mpr no_flat)

/-- Settles O40: the flat move, or the ramp at once. -/
theorem decelerateArmsItsFirstMove : Obligations.DecelerateArmsItsFirstMove := by
  intro s rate padSteps k idle short scanned
  obtain ⟨-, steps⟩ := scanRamp_steps rate short
  subst scanned
  refine ⟨fun shorter long => ?_, fun no_flat d entry long => ?_⟩
  · rw [exec_decelerate_flat shorter idle long, flatArmed, waiting_eq]
    rfl
  · have last_index : startIndex .reverse ((scanRamp rate s).job.k + 1) = (scanRamp rate s).job.k :=
      BitVec.add_sub_cancel ..
    rw [exec_decelerate_ramp no_flat, decelRamp_next (s := scanRamp rate s).mpr ⟨d, entry, idle, steps, long, rfl⟩,
      rampArmed, waiting_eq]
    simp only [populate, last_index]
    rfl

theorem exec_advanceSecondary_none {s : State} (no_pitch : s.jp.pitch = 0) : exec .advanceSecondary s = .next s :=
  if_pos no_pitch

/-- Settles O46: no pitch, or the flat move on axis Y. -/
theorem advanceSecondaryMovesByThePitch : Obligations.AdvanceSecondaryMovesByThePitch := by
  intro s
  refine ⟨exec_advanceSecondary_none, fun pitch idle long => ?_⟩
  refine ((exec_advanceSecondary_next pitch).mpr ⟨idle, long, rfl⟩).trans ?_
  rw [waiting_eq]
  rfl

/-! ### The parts of an accelerate -/

theorem pulsesAt_append (s : State) (laser : Byte) (delays delays' : List U16) :
    pulsesAt s laser (delays ++ delays') = pulsesAt s laser delays ++ pulsesAt s laser delays' :=
  List.map_append

theorem length_accelDelays {table : List U16} {rate : U16} (padSteps : U16)
    (inside : rampLength table rate < table.length) :
    (accelDelays table rate padSteps).length = max (rampLength table rate) padSteps.toNat + 1 := by
  rw [accelDelays, List.length_append, List.length_take, List.length_replicate]
  omega

/-- The FROM_TABLE move of `accelerate`, of `k + 1` steps from `TABLE[0]`, armed and waited for (R168). -/
def accelArmed (delay rate padSteps : U16) (x : State) : State :=
  waiting [.wait, .cruise rate padSteps] .accelRamp (launch (populate .fromTable .forward (x.job.k + 1) delay 0 x))

/-- The state the ramp of `accelerate` leaves. -/
def accelMoved (delay rate padSteps : U16) (x : State) : State :=
  (tableProfile (accelArmed delay rate padSteps x)).moved (accelArmed delay rate padSteps x)

/-- FOREGROUND has come to what follows the ramp. -/
def accelRamped (delay rate padSteps : U16) (x : State) : State :=
  { accelMoved delay rate padSteps x with agenda := x.agenda }

/-- The flat move of `accelerate`, armed and waited for (R168). -/
def cruiseArmed (n rate : U16) (x : State) : State :=
  waiting [.wait] .accelFlat (launch (populate .normal .forward n rate 0 x))

/-- The state the flat move of `accelerate` leaves. -/
def cruiseDone (n rate : U16) (x : State) : State := (normalProfile (cruiseArmed n rate x)).moved (cruiseArmed n rate x)

section Parts

variable {x : State} {delay rate padSteps n : U16}

theorem rampWrites_agenda (ts : List Task) (x : State) : RampWrites x { x with agenda := ts } := rfl

theorem accelMoved_writes (idle : x.running = false) : RampWrites x (accelMoved delay rate padSteps x) := by
  unfold RampWrites
  rw [idle]
  rfl

theorem cruiseDone_writes (idle : x.running = false) : RampWrites x (cruiseDone n rate x) := by
  unfold RampWrites
  rw [idle]
  rfl

theorem accelMoved_phase :
    (accelMoved delay rate padSteps x).job.phase = if x.job.phase = .none then .none else .accelRamp := rfl

theorem cruiseDone_phase :
    (cruiseDone n rate x).job.phase = if x.job.phase = .none then .none else .accelFlat := rfl

/-- `accelerate` up to its first wait (R168). -/
theorem exec_accelerate {s : State} (valid : s.cfg.Valid) (entry : s.cfg.table[0]? = some delay)
    (idle : s.running = false) :
    exec (.accelerate rate padSteps) s = .next (accelArmed delay rate padSteps (scanRamp rate s)) :=
  have ⟨_, short, _⟩ := valid
  have ⟨_, steps⟩ := scanRamp_steps rate short
  exec_accelerate_next.mpr ⟨delay, entry, idle, steps, entry_long_of_valid valid entry, rfl⟩

/-- FOREGROUND comes to the cruise in the step in which the wait for the ramp lifts (R237). -/
theorem stepAs_foreground_accelMoved :
    stepAs .foreground (accelMoved delay rate padSteps x) =
      resume (.cruise rate padSteps :: x.agenda)
        { accelMoved delay rate padSteps x with agenda := .cruise rate padSteps :: x.agenda } :=
  stepAs_foreground_wait_idle rfl rfl

theorem stepAs_foreground_cruiseDone :
    stepAs .foreground (cruiseDone n rate x) = resume x.agenda { cruiseDone n rate x with agenda := x.agenda } :=
  stepAs_foreground_wait_idle rfl rfl

variable (first : x.cfg.firstEvent = .pulseStart)
include first

theorem accelArmed_armedAs (steps : x.job.k + 1 ≠ 0) :
    ArmedAs .fromTable .forward (x.job.k + 1) delay 0 (accelArmed delay rate padSteps x) :=
  (armedAs_launch .fromTable .forward delay 0 first steps).waiting _ _

theorem cruiseArmed_armedAs (steps : n ≠ 0) : ArmedAs .normal .forward n rate 0 (cruiseArmed n rate x) :=
  (armedAs_launch .normal .forward rate 0 first steps).waiting [.wait] .accelFlat

theorem cruiseDone_pulses (steps : n ≠ 0) :
    (cruiseDone n rate x).pulses = x.pulses ++ pulsesAt x (laserOut x) (List.replicate n.toNat rate) :=
  (cruiseArmed_armedAs first steps).normal_pulses

/-- The block by itself arms the flat move in the step in which FOREGROUND comes to the cruise, and draws it. -/
theorem engineRun_accelMoved (shorter : x.job.k < padSteps) (long : x.cfg.pulseWidth < rate) :
    engineRun (2 * (padSteps - x.job.k).toNat + 1) (accelMoved delay rate padSteps x) =
      .next (cruiseDone (padSteps - x.job.k) rate (accelRamped delay rate padSteps x)) := by
  have steps : padSteps - x.job.k ≠ 0 := by bv_omega
  have arms : stepAs .foreground (accelMoved delay rate padSteps x) =
      .next (cruiseArmed (padSteps - x.job.k) rate (accelRamped delay rate padSteps x)) :=
    stepAs_foreground_accelMoved.trans
      (resume_cruise_flat (s := { accelMoved delay rate padSteps x with agenda := _ }) shorter rfl long)
  have armed := cruiseArmed_armedAs (x := accelRamped delay rate padSteps x) (rate := rate) first steps
  rw [engineRun_succ_of_stopped rfl, arms, andThen_next]
  exact armed.follows_normal.engineRun_move steps 0

end Parts

/-! ### A whole accelerate -/

/-- In `u` the engine is idle after moves of a ramp call in `s`, which has scanned this rate (R166). -/
structure Ramped (rate : U16) (s u : State) : Prop where
  idle : u.running = false
  stopped : u.tmr.run = false
  low : u.stepOut = false
  writes : RampWrites s u
  k : u.job.k.toNat = rampLength s.cfg.table rate

/-- In `x` an `accelerate` called in `s` has come to its cruise: the ramp is drawn. -/
structure AtCruise (rate : U16) (s x : State) : Prop extends Ramped rate s x where
  phase : x.job.phase = if s.job.phase = .none then .none else .accelRamp
  pulses : x.pulses = s.pulses ++ pulsesAt s (laserOut s) (s.cfg.table.take (rampLength s.cfg.table rate + 1))

/-- In `u` the moves of an `accelerate` called in `s` are drawn. -/
structure Accelerated (rate padSteps : U16) (s u : State) : Prop extends Ramped rate s u where
  no_job : s.job.phase = .none → u.job.phase = .none
  in_job : s.job.phase ≠ .none → u.job.phase = .accelRamp ∨ u.job.phase = .accelFlat
  pulses : u.pulses = s.pulses ++ pulsesAt s (laserOut s) (accelDelays s.cfg.table rate padSteps)

section Accelerate

variable {s x : State} {rate padSteps delay : U16}

/-- What FOREGROUND has pending is nothing to the ramp. -/
theorem AtCruise.with_agenda (h : AtCruise rate s x) (ts : List Task) : AtCruise rate s { x with agenda := ts } :=
  ⟨⟨h.idle, h.stopped, h.low, h.writes.trans (rampWrites_agenda ts x), h.k⟩, h.phase, h.pulses⟩

/-- Without padding left the ramp is the whole call. -/
theorem AtCruise.accelerated_ramp (h : AtCruise rate s x) (no_flat : padSteps ≤ x.job.k) :
    Accelerated rate padSteps s x where
  toRamped := h.toRamped
  no_job no_job := h.phase.trans (if_pos no_job)
  in_job in_job := .inl (h.phase.trans (if_neg in_job))
  pulses := by
    have no_padding : padSteps.toNat - rampLength s.cfg.table rate = 0 := by
      rw [← h.k]
      bv_omega
    rw [h.pulses, accelDelays, no_padding, List.replicate_zero, List.append_nil]

/-- With padding left the flat move of the difference follows. -/
theorem AtCruise.accelerated_flat (h : AtCruise rate s x) (first : s.cfg.firstEvent = .pulseStart)
    (shorter : x.job.k < padSteps) : Accelerated rate padSteps s (cruiseDone (padSteps - x.job.k) rate x) where
  idle := rfl
  stopped := rfl
  low := rfl
  writes := h.writes.trans (cruiseDone_writes h.idle)
  k := h.k
  no_job no_job := if_pos (h.phase.trans (if_pos no_job))
  in_job in_job := by
    have in_ramp : x.job.phase = .accelRamp := h.phase.trans (if_neg in_job)
    rw [cruiseDone_phase, in_ramp]
    exact .inr rfl
  pulses := by
    have steps : padSteps - x.job.k ≠ 0 := by bv_omega
    have padding : (padSteps - x.job.k).toNat = padSteps.toNat - rampLength s.cfg.table rate := by
      rw [← h.k]
      bv_omega
    rw [cruiseDone_pulses (h.writes.cfg_eq ▸ first) steps, padding, h.pulses, h.writes.pulsesAt_eq, accelDelays,
      pulsesAt_append, List.append_assoc]

/-- The ramp is set by the table as far as the table goes. -/
theorem accelArmed_follows {n : Nat} (valid : s.cfg.Valid) (first : s.cfg.firstEvent = .pulseStart)
    (entry : s.cfg.table[0]? = some delay) (within : n ≤ rampLength s.cfg.table rate + 1)
    (inside : n ≤ s.cfg.table.length) :
    Follows (tableProfile (accelArmed delay rate padSteps (scanRamp rate s)))
      (accelArmed delay rate padSteps (scanRamp rate s)) n := by
  have ⟨_, short, _⟩ := valid
  obtain ⟨no_carry, steps⟩ := scanRamp_steps rate short
  exact (accelArmed_armedAs (x := scanRamp rate s) first steps).follows_table valid (no_carry ▸ within) entry
    fun _ below => below.trans_le inside

variable (valid : s.cfg.Valid) (first : s.cfg.firstEvent = .pulseStart)
  (inside : rampLength s.cfg.table rate < s.cfg.table.length)
include valid first inside

/-- The ramp of a rate that some entry is below lies in the table (R168). -/
theorem atCruise_accelMoved (idle : s.running = false) :
    AtCruise rate s (accelMoved delay rate padSteps (scanRamp rate s)) where
  idle := rfl
  stopped := rfl
  low := rfl
  writes := (rampWrites_scanRamp rate s).trans (accelMoved_writes (x := scanRamp rate s) idle)
  k := scanRamp_k_toNat valid inside
  phase := accelMoved_phase
  pulses := by
    have ⟨_, short, _⟩ := valid
    obtain ⟨no_carry, steps⟩ := scanRamp_steps rate short
    have armed := accelArmed_armedAs (x := scanRamp rate s) (delay := delay) (rate := rate) (padSteps := padSteps)
      first steps
    have recorded := armed.table_pulses (no_carry.trans_le inside)
    rw [no_carry] at recorded
    exact recorded

/-- The block by itself draws the ramp. -/
theorem engineRun_accelArmed (entry : s.cfg.table[0]? = some delay) (m : Nat) :
    engineRun (2 * ((scanRamp rate s).job.k + 1).toNat + m) (accelArmed delay rate padSteps (scanRamp rate s)) =
      engineRun m (accelMoved delay rate padSteps (scanRamp rate s)) := by
  have ⟨_, short, _⟩ := valid
  obtain ⟨no_carry, steps⟩ := scanRamp_steps rate short
  have follows := accelArmed_follows (padSteps := padSteps) valid first entry no_carry.le (no_carry.trans_le inside)
  exact follows.engineRun_move steps m

/-- A whole `accelerate` (R168): the block by itself draws it and comes to the wait after which FOREGROUND goes on. -/
theorem accelerate_drawn (idle : s.running = false) (padSteps : U16) (long : s.cfg.pulseWidth < rate) :
    ∃ t n u, exec (.accelerate rate padSteps) s = .next t ∧ engineRun n t = .next u ∧
      stepAs .foreground u = resume s.agenda { u with agenda := s.agenda } ∧ Accelerated rate padSteps s u := by
  have entry := List.getElem?_eq_getElem (Nat.zero_lt_of_lt inside)
  generalize s.cfg.table[0] = delay at entry
  have calls := exec_accelerate (rate := rate) (padSteps := padSteps) valid entry idle
  have draws := engineRun_accelArmed (padSteps := padSteps) valid first inside entry
  have ramp := atCruise_accelMoved (delay := delay) (padSteps := padSteps) valid first inside idle
  by_cases shorter : (scanRamp rate s).job.k < padSteps
  · have cruises := engineRun_accelMoved (x := scanRamp rate s) (delay := delay) first shorter long
    exact ⟨_, _, _, calls, (draws _).trans cruises, stepAs_foreground_cruiseDone,
      (ramp.with_agenda s.agenda).accelerated_flat first shorter⟩
  · have no_flat := BitVec.not_lt.mp shorter
    have goes_on : stepAs .foreground (accelMoved delay rate padSteps (scanRamp rate s)) =
        resume s.agenda (accelRamped delay rate padSteps (scanRamp rate s)) :=
      stepAs_foreground_accelMoved.trans
        (resume_cruise_none (s := { accelMoved delay rate padSteps (scanRamp rate s) with agenda := _ }) no_flat rfl)
    exact ⟨_, _, _, calls, draws 0, goes_on, ramp.accelerated_ramp no_flat⟩

end Accelerate

/-- Settles O41: the ramp, and the flat move when some padding is left. -/
theorem accelerateEmitsRampThenCruise : Obligations.AccelerateEmitsRampThenCruise := by
  intro s rate padSteps valid first idle long inside
  obtain ⟨t, n, u, calls, run, goes_on, drawn⟩ := accelerate_drawn valid first inside idle padSteps long
  exact ⟨t, n, u, calls, run, goes_on, drawn.pulses, length_accelDelays padSteps inside, drawn.idle, drawn.stopped,
    drawn.low, drawn.k, drawn.no_job, drawn.writes⟩

/-! ### A rate that the whole table reaches -/

theorem decelRamp_outside {s : State} (outside : s.cfg.table.length ≤ s.job.k.toNat) :
    decelRamp s = .fault (.tableRange s.job.k.toNat s) :=
  readTable_fault.mpr (.inl ⟨outside, rfl⟩)

theorem resume_decelRamp_outside {s : State} {rest : List Task} (outside : s.cfg.table.length ≤ s.job.k.toNat) :
    resume (.decelRamp :: rest) s = .fault (.tableRange s.job.k.toNat { s with agenda := rest }) := by
  have faults : runTask .decelRamp { s with agenda := rest } = _ :=
    decelRamp_outside (s := { s with agenda := rest }) outside
  rw [resume_cons, faults, andThen_fault]

/-- The pulse-end event of a FROM_TABLE move that goes on past the table faults in its dispatch (R130, R252). -/
theorem timerStep_pastTable {s : State} {index : U16} (runs : s.tmr.run = true) (due : s.tmr.next = .pulseEnd)
    (in_mode : s.mc.mode = .fromTable) (next : GoesOnTo s.mc index) (outside : s.cfg.table.length ≤ index.toNat) :
    timerStep s = .fault (.tableRange index.toNat (pulseEnded index s)) := by
  have faults : dispatchFromTable (pulseEnded index s) = .fault (.tableRange index.toNat (pulseEnded index s)) :=
    dispatchFromTable_outside outside
  rw [timerStep_endsPulse runs due, in_mode, pulseEndEvent_goesOn next, modeDispatch, faults, andThen_fault]

section Exhausted

variable {s a : State} {rate padSteps total delay n : U16}

/-- The scan of such a rate counts the table (R172). -/
theorem scanRamp_exhausted (exhausted : rampLength s.cfg.table rate = s.cfg.table.length)
    (length : n.toNat = s.cfg.table.length) : scanRamp rate s = { s with job := { s.job with k := n } } := by
  rw [scanRamp, exhausted, ← length, BitVec.ofNat_toNat, BitVec.setWidth_eq]

section Ramp

variable (armed : ArmedAs .fromTable .forward (n + 1) delay 0 a) (length : n.toNat = a.cfg.table.length)
  (some_entry : n.toNat - 1 + 1 = n.toNat)
include armed length some_entry

/-- In the pulse of the last entry the whole table is recorded. -/
theorem ArmedAs.lastEntry_pulses :
    ((tableProfile a).inPulse a (n.toNat - 1)).pulses = a.pulses ++ pulsesAt a (laserOut a) a.cfg.table := by
  have forward (j : Nat) : stepAt a j = j := by rw [stepAt, armed.direction_eq, stepNumber]
  have entries (i : Nat) (inside : i < n.toNat) := getElem?_eq_some_getD (length ▸ inside : i < a.cfg.table.length) 0
  have along : _ = a.cfg.table := map_stepNumber .forward length.symm entries
  rw [inPulse_pulses, some_entry, pulsesAt, ← congrArg (List.map _) along, List.map_map]
  simp only [forward]
  rfl

/-- The pulse-end event of the last entry comes to the index past the table (R172). -/
theorem ArmedAs.lastEntry_faults (short : a.cfg.table.length ≤ 65534) :
    timerStep ((tableProfile a).inPulse a (n.toNat - 1)) =
      .fault (.tableRange n.toNat (pulseEnded n ((tableProfile a).inPulse a (n.toNat - 1)))) := by
  have one_more : (n + 1).toNat = n.toNat + 1 := by bv_omega
  have next : GoesOnTo ((tableProfile a).inPulse a (n.toNat - 1)).mc n := by
    have goes_on := goesOnTo_stepAt (P := tableProfile a) (a := a) (k := n.toNat - 1)
      (by rw [armed.totalSteps_eq, one_more, some_entry]; exact Nat.lt_succ_self _)
    rwa [some_entry, stepAt, armed.direction_eq, stepNumber, BitVec.ofNat_toNat, BitVec.setWidth_eq] at goes_on
  exact timerStep_pastTable (congrArg StepTimer.run armed.tmr) rfl (congrArg MoveCommand.mode armed.mc) next length.ge

end Ramp

section Decelerate

variable (exhausted : rampLength s.cfg.table rate = s.cfg.table.length) (length : n.toNat = s.cfg.table.length)
include exhausted length

/-- A `decelerate` that begins with its ramp faults at once (R172). -/
theorem exec_decelerate_exhausted (no_flat : padSteps ≤ n) :
    exec (.decelerate rate padSteps) s = .fault (.tableRange n.toNat { s with job := { s.job with k := n } }) := by
  have scanned := scanRamp_exhausted exhausted length
  have no_flat : padSteps ≤ (scanRamp rate s).job.k := by rwa [scanned]
  rw [exec_decelerate_ramp no_flat, scanned]
  exact decelRamp_outside (s := { s with job := { s.job with k := n } }) length.ge

/-- One that begins with a flat move faults when its wait lifts (R172). -/
theorem decelerate_flat_exhausted (shorter : n < padSteps) (idle : s.running = false) (long : s.cfg.pulseWidth < rate)
    (first : s.cfg.firstEvent = .pulseStart) :
    ∃ t u, exec (.decelerate rate padSteps) s = .next t ∧ timerRun (2 * (padSteps - n).toNat) t = .next u ∧
      u.pulses = s.pulses ++ pulsesAt s (laserOut s) (List.replicate (padSteps - n).toNat rate) ∧
      stepAs .foreground u = .fault (.tableRange n.toNat { u with agenda := s.agenda }) := by
  have scanned := scanRamp_exhausted exhausted length
  have shorter : (scanRamp rate s).job.k < padSteps := by rwa [scanned]
  have steps : padSteps - n ≠ 0 := by bv_omega
  have calls := exec_decelerate_flat shorter idle long
  rw [scanned] at calls
  have armed := flatArmed_armedAs (x := { s with job := { s.job with k := n } }) (rate := rate) steps first
  refine ⟨_, _, calls, armed.follows_normal.timerRun_move steps, armed.normal_pulses, ?_⟩
  exact (stepAs_foreground_wait_idle rfl rfl).trans (resume_decelRamp_outside length.ge)

end Decelerate

end Exhausted

/-- Settles O43: the ramp of `accelerate` comes one step past the table, and that of `decelerate` begins there. -/
theorem exhaustedTableFaults : Obligations.ExhaustedTableFaults := by
  intro s rate padSteps n valid idle exhausted length
  refine ⟨fun first => ?_, exec_decelerate_exhausted exhausted length, fun shorter long first =>
    decelerate_flat_exhausted exhausted length shorter idle long first⟩
  have ⟨some_entry, short, _⟩ := valid
  have entry := List.getElem?_eq_getElem some_entry
  generalize s.cfg.table[0] = delay at entry
  have scanned := scanRamp_exhausted exhausted length
  have steps : n + 1 ≠ 0 := by bv_omega
  have some_entry : n.toNat - 1 + 1 = n.toNat := by omega
  have calls := exec_accelerate (rate := rate) (padSteps := padSteps) valid entry idle
  have follows := accelArmed_follows (padSteps := padSteps) (rate := rate) valid first entry (n := n.toNat)
    (by omega) length.le
  rw [scanned] at calls follows
  have armed := accelArmed_armedAs (x := { s with job := { s.job with k := n } }) (delay := delay) (rate := rate)
    (padSteps := padSteps) first steps
  refine ⟨_, _, calls, rfl, ?_, armed.lastEntry_pulses length some_entry,
    armed.lastEntry_faults length some_entry short⟩
  rw [show 2 * n.toNat - 1 = 2 * (n.toNat - 1) + 1 by omega]
  exact follows.timerRun_inPulse (by omega)

end Sys2Proof.Machine

/-! SUPPORT. A whole scanline (R232 to R237): each operation that the sequencer calls is drawn by the block by itself, up
to the step in which FOREGROUND leaves its phase and so calls the next one. With the statement O49. -/

namespace Sys2Proof.Machine

/-! ### Runs from one phase to the next -/

theorem engineRun_add (m n : Nat) (s : State) : engineRun (m + n) s = andThen (engineRun m s) (engineRun n) := by
  induction m generalizing s with
  | zero =>
    rw [Nat.zero_add]
    rfl
  | succ m ih =>
    rw [Nat.succ_add, engineRun, engineRun, andThen_assoc]
    exact congrArg (andThen (stepAs (engineTurn s) s)) (funext ih)

/-- After `r` the block by itself comes to the step in which FOREGROUND leaves the phase of `u`. -/
def ComesTo (r : Result) (u : State) : Prop :=
  ∃ n w, andThen r (engineRun n) = .next w ∧ w.tmr.run = false ∧ stepAs .foreground w = leavePhase u

theorem ComesTo.run {r : Result} {u v : State} {m : Nat} (h : ComesTo r u)
    (leaves : andThen (leavePhase u) (engineRun m) = .next v) : ∃ n, andThen r (engineRun n) = .next v := by
  obtain ⟨n, w, comes, stopped, turn⟩ := h
  refine ⟨n + (m + 1), ?_⟩
  calc andThen r (engineRun (n + (m + 1)))
    _ = andThen (andThen r (engineRun n)) (engineRun (m + 1)) := by
      rw [andThen_assoc]
      exact congrArg (andThen r) (funext (engineRun_add n (m + 1)))
    _ = andThen (leavePhase u) (engineRun m) := by
      rw [comes, andThen_next, engineRun_succ_of_stopped stopped, turn]
    _ = .next v := leaves

theorem ComesTo.trans {r : Result} {u v : State} (h : ComesTo r u) (h' : ComesTo (leavePhase u) v) : ComesTo r v := by
  obtain ⟨m, w, comes, stopped, turn⟩ := h'
  obtain ⟨n, run⟩ := h.run comes
  exact ⟨n, w, run, stopped, turn⟩

/-! ### What the operations of a line leave alone -/

/-- What the operations of a line read and do not write. -/
def lineContext (s : State) : Params × JobParameters × Memory × List Byte × List Byte × U16 :=
  (s.cfg, s.jp, s.scan, s.rx, s.tx, s.job.line)

theorem RampWrites.lineContext_eq {s u : State} (h : RampWrites s u) : lineContext u = lineContext s := by
  rw [h]
  rfl

theorem lineContext_eq {s u : State} (same : lineContext u = lineContext s) :
    u.cfg = s.cfg ∧ u.jp = s.jp ∧ currentDir u = currentDir s := by
  simp only [lineContext, Prod.mk.injEq] at same
  obtain ⟨cfg, jp, -, -, -, line⟩ := same
  exact ⟨cfg, jp, by rw [currentDir, currentDir, cfg, line]⟩

/-- No move is active, FOREGROUND has nothing pending and the laser is off. -/
structure AtRest (u : State) : Prop where
  idle : u.running = false
  nothing_pending : u.agenda = []
  off : u.pwm.connected = false

theorem AtRest.dark {u : State} (h : AtRest u) : laserOut u = 0 := by
  rw [laserOut_eq, h.off]
  rfl

/-- From `s` to `u` these pulses are drawn, with the latches as they were. -/
structure Drawn (s : State) (records : List Pulse) (u : State) : Prop extends AtRest u where
  context : lineContext u = lineContext s
  axis : u.axis = s.axis
  physDir : u.physDir = s.physDir
  pulses : u.pulses = s.pulses ++ records

section Drawn

variable {s t u : State} {records records' : List Pulse}

theorem Drawn.trans (h : Drawn s records t) (h' : Drawn t records' u) : Drawn s (records ++ records') u where
  toAtRest := h'.toAtRest
  context := h'.context.trans h.context
  axis := h'.axis.trans h.axis
  physDir := h'.physDir.trans h.physDir
  pulses := by rw [h'.pulses, h.pulses, List.append_assoc]

/-- With the same latches a record is the same. -/
theorem Drawn.pulsesAt_eq (h : Drawn s records u) : pulsesAt u = pulsesAt s := by
  unfold pulsesAt
  rw [h.axis, h.physDir]

theorem Drawn.rasterPulses_eq (h : Drawn s records u) : rasterPulses u = rasterPulses s := by
  unfold rasterPulses
  rw [h.axis, h.physDir]

/-- What a ramp draws. -/
theorem AtRest.drawn_of_rampWrites (h : AtRest s) (idle : u.running = false) (nothing_pending : u.agenda = [])
    (writes : RampWrites s u) (pulses : u.pulses = s.pulses ++ records) : Drawn s records u where
  idle := idle
  nothing_pending := nothing_pending
  off := by
    rw [writes]
    exact h.off
  context := writes.lineContext_eq
  axis := by rw [writes]
  physDir := by rw [writes]
  pulses := pulses

end Drawn

/-- The line of `s` can be drawn (R157, R166): its velocity ends the ramp inside the table, and its pixels are
written. -/
structure Drawable (pixels : List Byte) (s : State) : Prop where
  valid : s.cfg.Valid
  first : s.cfg.firstEvent = .pulseStart
  width : s.jp.outWidth ≠ 0
  fits : s.jp.outWidth ≤ s.cfg.scanCap
  long : s.cfg.pulseWidth < s.jp.velocity
  inside : rampLength s.cfg.table s.jp.velocity < s.cfg.table.length
  length_eq : pixels.length = s.jp.outWidth.toNat
  written : ∀ j, j < pixels.length → s.scan.read j = pixels[j]?

theorem Drawable.congr {pixels : List Byte} {s u : State} (h : Drawable pixels s)
    (same : lineContext u = lineContext s) : Drawable pixels u := by
  simp only [lineContext, Prod.mk.injEq] at same
  obtain ⟨cfg, jp, scan, -⟩ := same
  refine ⟨?_, ?_, ?_, ?_, ?_, ?_, ?_, ?_⟩ <;> simp only [cfg, jp, scan]
  exacts [h.valid, h.first, h.width, h.fits, h.long, h.inside, h.length_eq, h.written]

/-! ### The operations of a line -/

/-- The raster move of the line, armed and waited for, with its first pixel `b` (R157). -/
def lineArmed (b : Byte) (dir : Direction) (s : State) : State :=
  waiting [.wait, .laserOff] .raster
    (launch (populate .raster dir s.jp.outWidth s.jp.velocity 0
      { s with pwm := { duty := b, run := true, connected := true } }))

/-- The state the raster move of the line leaves. -/
def lineMoved (pixels : List Byte) (b : Byte) (dir : Direction) (s : State) : State :=
  (rasterProfile (lineArmed b dir s) pixels).moved (lineArmed b dir s)

theorem lineArmed_armedAs {b : Byte} {dir : Direction} {s : State} (first : s.cfg.firstEvent = .pulseStart)
    (width : s.jp.outWidth ≠ 0) :
    ArmedAs .raster dir s.jp.outWidth s.jp.velocity 0 (lineArmed b dir s) :=
  (armedAs_launch (s := { s with pwm := { duty := b, run := true, connected := true } })
    .raster dir s.jp.velocity 0 first width).waiting [.wait, .laserOff] .raster

/-- The latches of `advance_secondary` (R235). -/
def secondaryLatches (s : State) : State := { s with axis := .y, physDir := .pos }

/-- The flat move of `advance_secondary`, armed and waited for (R235). -/
def pitchArmed (s : State) : State :=
  waiting [.wait] .pitch (launch (populate .normal .forward s.jp.pitch s.jp.velocity 0 (secondaryLatches s)))

/-- The state the flat move of `advance_secondary` leaves. -/
def pitchMoved (s : State) : State := (normalProfile (pitchArmed s)).moved (pitchArmed s)

section Operations

variable {pixels : List Byte} {s : State} (line : Drawable pixels s) (rest : AtRest s)
include line rest

theorem accelerate_comesTo (in_job : s.job.phase ≠ .none) :
    ∃ u, ComesTo (exec (.accelerate s.jp.velocity s.jp.rampLen) s) u ∧
      (u.job.phase = .accelRamp ∨ u.job.phase = .accelFlat) ∧
      Drawn s (pulsesAt s 0 (accelDelays s.cfg.table s.jp.velocity s.jp.rampLen)) u := by
  obtain ⟨t, n, w, calls, run, goes_on, accelerated⟩ :=
    accelerate_drawn line.valid line.first line.inside rest.idle s.jp.rampLen line.long
  rw [rest.nothing_pending, resume_nil] at goes_on
  refine ⟨_, ⟨n, w, by rw [calls, andThen_next, run], accelerated.stopped, goes_on⟩, accelerated.in_job in_job, ?_⟩
  refine rest.drawn_of_rampWrites accelerated.idle rfl (accelerated.writes.trans (rampWrites_agenda [] w)) ?_
  rw [← rest.dark]
  exact accelerated.pulses

theorem decelerate_comesTo (in_job : s.job.phase ≠ .none) :
    ∃ u, ComesTo (exec (.decelerate s.jp.velocity s.jp.rampLen) s) u ∧ u.job.phase = .decelRamp ∧
      Drawn s (pulsesAt s 0 (accelDelays s.cfg.table s.jp.velocity s.jp.rampLen).reverse) u := by
  obtain ⟨t, n, w, calls, run, goes_on, pulses, idle, stopped, -, -, -, phase, writes⟩ :=
    decelerateEmitsCruiseThenRamp s _ s.jp.rampLen line.valid line.first rest.idle line.long line.inside
  rw [rest.nothing_pending, resume_nil] at goes_on
  refine ⟨_, ⟨n, w, by rw [calls, andThen_next, run], stopped, goes_on⟩, phase.trans (if_neg in_job), ?_⟩
  have writes : RampWrites s w := writes
  refine rest.drawn_of_rampWrites idle rfl (writes.trans (rampWrites_agenda [] w)) ?_
  rw [← rest.dark]
  exact pulses

theorem rasterMove_comesTo (dir : Direction) (in_job : s.job.phase ≠ .none) :
    ∃ u, ComesTo (exec (.rasterMove s.jp.outWidth 0 dir s.jp.velocity) s) u ∧ u.job.phase = .raster ∧
      Drawn s (rasterPulses s s.jp.velocity (inDirection dir pixels)) u := by
  have fits : (0 : U16).toNat + s.jp.outWidth.toNat ≤ s.cfg.scanCap.toNat := by simpa using BitVec.le_def.mp line.fits
  have written (j : Nat) (inside : j < s.jp.outWidth.toNat) :
      s.scan.read ((0 : U16).toNat + j) = some (pixels[j]?.getD 0) := by
    rw [← line.length_eq] at inside
    exact (congrArg s.scan.read (Nat.zero_add j)).trans
      ((line.written j inside).trans (getElem?_eq_some_getD inside 0))
  have calls := exec_rasterMove_inside (dir := dir) rest.idle line.width line.long (firstIndex_lt line.width fits)
  rw [scanIndex, firstPixel_of_written (written _ (BitVec.lt_def.mp (startIndex_lt line.width)))] at calls
  generalize first_pixel : pixels[(startIndex dir s.jp.outWidth).toNat]?.getD 0 = b at calls
  have armed := lineArmed_armedAs (dir := dir) (b := b) line.first line.width
  have draws := (armed.follows_raster fits written first_pixel).engineRun_move line.width 0
  have comes : andThen (.next (lineArmed b dir s)) (engineRun _) = .next (lineMoved pixels b dir s) := draws
  have records := armed.raster_pulses line.length_eq ⟨rfl, rfl⟩
  have goes_on : stepAs .foreground (lineMoved pixels b dir s) = _ :=
    (stepAs_foreground_wait_idle rfl rfl).trans
      (resume_laserOff (s := { lineMoved pixels b dir s with agenda := .laserOff :: s.agenda }) rfl)
  rw [rest.nothing_pending, resume_nil] at goes_on
  refine ⟨_, ⟨_, _, calls ▸ comes, rfl, goes_on⟩, if_neg in_job, ⟨rfl, rfl, rfl⟩, rfl, rfl, rfl, records⟩

theorem advanceSecondary_comesTo (in_job : s.job.phase ≠ .none) (pitch : s.jp.pitch ≠ 0) :
    ∃ u, ComesTo (exec .advanceSecondary s) u ∧ u.job.phase = .pitch ∧
      Drawn (secondaryLatches s)
        (pulsesAt (secondaryLatches s) 0 (List.replicate s.jp.pitch.toNat s.jp.velocity)) u := by
  have calls : exec .advanceSecondary s = .next (pitchArmed s) :=
    (exec_advanceSecondary_next pitch).mpr ⟨rest.idle, line.long, rfl⟩
  have armed : ArmedAs .normal .forward s.jp.pitch s.jp.velocity 0 (pitchArmed s) :=
    (armedAs_launch (s := secondaryLatches s) .normal .forward s.jp.velocity 0 line.first pitch).waiting [.wait] .pitch
  have comes : andThen (.next (pitchArmed s)) (engineRun _) = .next (pitchMoved s) :=
    armed.follows_normal.engineRun_move pitch 0
  have goes_on : stepAs .foreground (pitchMoved s) = resume s.agenda { pitchMoved s with agenda := s.agenda } :=
    stepAs_foreground_wait_idle rfl rfl
  have records := armed.normal_pulses
  rw [show laserOut (pitchArmed s) = 0 from rest.dark] at records
  rw [rest.nothing_pending, resume_nil] at goes_on
  exact ⟨_, ⟨_, _, calls ▸ comes, rfl, goes_on⟩, if_neg in_job, ⟨rfl, rfl, rest.off⟩, rfl, rfl, rfl, records⟩

end Operations

/-! ### The end of a line -/

/-- The next line is requested, or the job is over (R237, R239). -/
theorem nextLine_eq (s : State) :
    nextLine s =
      { s with
        job := { s.job with
          line := s.job.line + 1, phase := if s.job.line + 1 = s.jp.imageHeight then .none else .reqLine }
        ps := (nextLine s).ps } := by
  unfold nextLine
  split <;> rfl

/-- After the ramp down the pitch is drawn, if there is one, and the line is over (R235, R237). -/
theorem pitch_drawn {pixels : List Byte} {s : State} (line : Drawable pixels s) (rest : AtRest s)
    (in_phase : s.job.phase = .decelRamp) :
    ∃ n u, andThen (leavePhase s) (engineRun n) = .next (nextLine u) ∧ AtRest u ∧ lineContext u = lineContext s ∧
      u.pulses = s.pulses ++ pulsesAt (secondaryLatches s) 0 (List.replicate s.jp.pitch.toNat s.jp.velocity) := by
  have in_job : s.job.phase ≠ .none := in_phase ▸ nofun
  rw [leavePhase_decelRamp in_phase]
  by_cases pitch : s.jp.pitch = 0
  · refine ⟨0, s, by rw [if_pos pitch]; rfl, rest, rfl, ?_⟩
    rw [pitch]
    exact (List.append_nil _).symm
  · obtain ⟨u, comes, in_phase, drawn⟩ := advanceSecondary_comesTo line rest in_job pitch
    obtain ⟨n, run⟩ := comes.run (m := 0) (by rw [leavePhase_pitch in_phase]; rfl)
    rw [if_neg pitch]
    exact ⟨n, u, run, drawn.toAtRest, drawn.context, drawn.pulses⟩

/-- The operations of a line one after the other (R232). -/
theorem line_drawn {pixels : List Byte} {s : State} {dir : Direction} (line : Drawable pixels s) (rest : AtRest s)
    (in_job : s.job.phase ≠ .none) (sense : currentDir s = dir) :
    ∃ n u, andThen (exec (.accelerate s.jp.velocity s.jp.rampLen) s) (engineRun n) = .next (nextLine u) ∧ AtRest u ∧
      lineContext u = lineContext s ∧
      u.pulses =
        s.pulses ++ pulsesAt s 0 (accelDelays s.cfg.table s.jp.velocity s.jp.rampLen) ++
          rasterPulses s s.jp.velocity (inDirection dir pixels) ++
          pulsesAt s 0 (accelDelays s.cfg.table s.jp.velocity s.jp.rampLen).reverse ++
          pulsesAt (secondaryLatches s) 0 (List.replicate s.jp.pitch.toNat s.jp.velocity) := by
  obtain ⟨t, accelerates, t_phase, up⟩ := accelerate_comesTo line rest in_job
  have t_job : t.job.phase ≠ .none := by rcases t_phase with h | h <;> rw [h] <;> nofun
  have t_line := line.congr up.context
  obtain ⟨u, draws, u_phase, across⟩ := rasterMove_comesTo t_line up.toAtRest (currentDir t) t_job
  have u_line := t_line.congr across.context
  obtain ⟨v, slows, v_phase, down⟩ := decelerate_comesTo u_line across.toAtRest (u_phase ▸ nofun)
  have v_line := u_line.congr down.context
  obtain ⟨n, w, ends, w_rest, w_context, w_pulses⟩ := pitch_drawn v_line down.toAtRest v_phase
  rw [← leavePhase_accelerated t_phase] at draws
  rw [← leavePhase_raster u_phase] at slows
  obtain ⟨m, run⟩ := ((accelerates.trans draws).trans slows).run ends
  have upto := up.trans across
  have drawn := upto.trans down
  obtain ⟨-, t_jp, t_dir⟩ := lineContext_eq up.context
  obtain ⟨u_cfg, u_jp, -⟩ := lineContext_eq upto.context
  obtain ⟨-, v_jp, -⟩ := lineContext_eq drawn.context
  refine ⟨m, w, run, w_rest, w_context.trans drawn.context, ?_⟩
  rw [w_pulses, drawn.pulses, up.rasterPulses_eq, upto.pulsesAt_eq, t_jp, t_dir, sense, u_cfg, u_jp, v_jp]
  simp only [List.append_assoc]
  rfl

/-- Settles O49: the step that begins the line, its operations one after the other, and the next line. -/
theorem scanlineIsDrawn : Obligations.ScanlineIsDrawn := by
  intro s pixels dir x y valid engine first idle off nothing_pending in_phase whole width fits long inside length_eq
    written sense x_eq y_eq
  obtain ⟨timer, -⟩ := engine
  have stopped : s.tmr.run = false := timer.trans idle
  obtain ⟨-, accelerate, -⟩ := sequencerCallsTheOperations s dir sense
  have latched : stepAs .foreground s = exec (.accelerate x.jp.velocity x.jp.rampLen) x ∧ Drawable pixels x ∧
      AtRest x ∧ x.job.phase = .readLine ∧ currentDir x = dir := by
    subst x_eq
    exact ⟨accelerate in_phase nothing_pending (whole ▸ BitVec.le_refl _) idle,
      ⟨valid, first, width, fits, long, inside, length_eq, written⟩, ⟨idle, nothing_pending, off⟩, in_phase,
      sense.symm⟩
  obtain ⟨begins, line, rest, in_phase, sense⟩ := latched
  obtain ⟨n, u, run, u_rest, context, pulses⟩ := line_drawn line rest (in_phase ▸ nofun) sense
  subst x_eq y_eq
  have run : engineRun (n + 1) s = .next (nextLine u) := by
    rw [engineRun_succ_of_stopped stopped, begins]
    exact run
  simp only [lineContext, Prod.mk.injEq] at context
  obtain ⟨-, jp, scan, rx, tx, number⟩ := context
  rw [nextLine_eq] at run
  refine ⟨_, _, run, ?_, u_rest.idle, u_rest.dark, u_rest.nothing_pending, scan, jp, rx, tx,
    congrArg (· + 1) number, by simp only [jp, number]⟩
  cases dir <;> exact pulses

end Sys2Proof.Machine

/-! SUPPORT. What can stop a session (R172, R251, R253): an operation that the sequencer calls stops only where the ramp
has gone past the table, a message only where it starts a job with backlash. With the statement O60. -/

namespace Sys2Proof.Machine

/-! ### The two stops -/

/-- If `r` stops, then by a fault past the table, with every entry at least the job's velocity, or by the refusal of a job
with backlash. -/
structure SessionStop (c : Params) (jp : JobParameters) (r : Result) : Prop where
  fault : ∀ f, r = .fault f →
    (∃ left, f = .tableRange c.table.length left) ∧ rampLength c.table jp.velocity = c.table.length
  refusal : ∀ e, r = .refused e → e = .backlash ∧ jp.backlash ≠ 0

section Stops

variable {c : Params} {jp : JobParameters} {r : Result}

theorem SessionStop.of_next {t : State} (h : r = .next t) : SessionStop c jp r where
  fault _ faults := nomatch h.symm.trans faults
  refusal _ refuses := nomatch h.symm.trans refuses

theorem SessionStop.next (t : State) : SessionStop c jp (.next t) := .of_next rfl

theorem SessionStop.past_table {left : State} (h : r = .fault (.tableRange c.table.length left))
    (exhausted : rampLength c.table jp.velocity = c.table.length) : SessionStop c jp r where
  fault f faults := by
    cases h.symm.trans faults
    exact ⟨⟨left, rfl⟩, exhausted⟩
  refusal _ refuses := nomatch h.symm.trans refuses

theorem SessionStop.backlash (h : r = .refused .backlash) (backlash : jp.backlash ≠ 0) : SessionStop c jp r where
  fault _ faults := nomatch h.symm.trans faults
  refusal e refuses := by
    cases h.symm.trans refuses
    exact ⟨rfl, backlash⟩

theorem SessionStop.bind {f : State → Result} (h : SessionStop c jp r)
    (then_stop : ∀ t, r = .next t → SessionStop c jp (f t)) : SessionStop c jp (andThen r f) := by
  cases r with
  | next t => exact then_stop t rfl
  | fault e => exact h
  | refused e => exact h

end Stops

/-! ### The operations of a line -/

theorem rasterMove_sessionStop {s : State} (idle : s.running = false) (checked : JobFits s)
    (fits : s.jp.outWidth ≤ s.cfg.scanCap) (dir : Direction) :
    SessionStop s.cfg s.jp (exec (.rasterMove s.jp.outWidth 0 dir s.jp.velocity) s) := by
  obtain ⟨width, long, -⟩ := checked
  exact .of_next (exec_rasterMove_inside idle width long (firstIndex_lt width (by simpa using BitVec.le_def.mp fits)))

section Operations

variable {s : State} (valid : s.cfg.Valid) (idle : s.running = false)
include valid idle

theorem accelerate_sessionStop {c : Params} {jp : JobParameters} (rate padSteps : U16) :
    SessionStop c jp (exec (.accelerate rate padSteps) s) := by
  have ⟨some_entry, _⟩ := valid
  exact .of_next (exec_accelerate valid (List.getElem?_eq_getElem some_entry) idle)

/-- The ramp begins inside the table or one past its end (R172). -/
theorem decelRamp_sessionStop (scanned : Scanned s) : SessionStop s.cfg s.jp (decelRamp s) := by
  by_cases inside : s.job.k.toNat < s.cfg.table.length
  · exact .of_next (decelRamp_eq valid (List.getElem?_eq_getElem inside) idle)
  · have exhausted : s.job.k.toNat = s.cfg.table.length :=
      Nat.le_antisymm (scanned.trans_le (rampLength_le ..)) (Nat.not_lt.mp inside)
    exact .past_table (exhausted ▸ decelRamp_outside exhausted.ge) (scanned.symm.trans exhausted)

variable (checked : JobFits s)
include checked

theorem decelerate_sessionStop : SessionStop s.cfg s.jp (exec (.decelerate s.jp.velocity s.jp.rampLen) s) := by
  obtain ⟨-, long, -⟩ := checked
  rw [exec_decelerate idle long]
  split
  · exact .next _
  · exact decelRamp_sessionStop (s := scanRamp s.jp.velocity s) valid idle (scanned_scanRamp valid)

variable (fits : s.jp.outWidth ≤ s.cfg.scanCap)
include fits

theorem leavePhase_sessionStop : SessionStop s.cfg s.jp (leavePhase s) := by
  have secondary :
      SessionStop s.cfg s.jp (if s.jp.pitch = 0 then .next (nextLine s) else exec .advanceSecondary s) := by
    obtain ⟨-, long, -⟩ := checked
    split
    · exact .next _
    · next pitch => exact .of_next ((exec_advanceSecondary_next pitch).mpr ⟨idle, long, rfl⟩)
  unfold leavePhase
  cases s.job.phase with
  | none | reqLine | readLine | pitch => exact .next _
  | accelRamp | accelFlat => exact rasterMove_sessionStop idle checked fits _
  | raster => exact decelerate_sessionStop valid idle checked
  | decelFlat | decelRamp => exact secondary

/-- The step in which the wait of a phase lifts (R237). -/
theorem afterWait_sessionStop (scanned : Scanned s) (p : JobPhase) :
    SessionStop s.cfg s.jp (resume (afterWait s.jp p) { s with agenda := afterWait s.jp p }) := by
  have leaves : SessionStop s.cfg s.jp (leavePhase { s with agenda := [] }) :=
    leavePhase_sessionStop (s := { s with agenda := [] }) valid idle checked fits
  cases p with
  | none | reqLine | readLine | accelFlat | decelRamp | pitch => exact leaves
  | accelRamp =>
    by_cases shorter : s.job.k < s.jp.rampLen
    · obtain ⟨-, long, -⟩ := checked
      exact .of_next (resume_cruise_flat (s := { s with agenda := _ }) shorter idle long)
    · have no_flat := resume_cruise_none (rate := s.jp.velocity) (rest := []) (s := { s with agenda := _ })
        (BitVec.not_lt.mp shorter) idle
      exact no_flat ▸ leaves
  | raster =>
    have off := resume_laserOff (rest := []) (s := { s with agenda := [.laserOff] }) idle
    have dark : SessionStop s.cfg s.jp (leavePhase (setOutput false { s with agenda := [] })) :=
      leavePhase_sessionStop (s := setOutput false { s with agenda := [] }) valid idle checked fits
    exact off ▸ dark
  | decelFlat =>
    refine (decelRamp_sessionStop (s := { s with agenda := [] }) valid idle scanned).bind fun t ramps => ?_
    obtain ⟨d, -, -, -, -, rfl⟩ := decelRamp_next.mp ramps
    exact .next _

end Operations

/-! ### The parser and the reading of a line -/

section NoWait

variable {s : State}

theorem start_sessionStop : SessionStop s.cfg s.jp (execStart s) := by
  refine SessionStop.bind ?_ fun _ _ => .next _
  rcases beginJob_cases s with ⟨-, answer⟩ | ⟨-, backlash, answer⟩ | ⟨-, -, -, answer⟩ | ⟨-, -, -, answer⟩
  · exact .of_next answer
  · exact .backlash answer backlash
  · exact .of_next answer
  · exact .of_next answer

theorem shortInstr_sessionStop (b : Byte) : SessionStop s.cfg s.jp (exec (shortInstr b) s) := by
  rcases shortInstr_cases b with ⟨-, message⟩ | ⟨-, message⟩ | ⟨-, -, message⟩ <;> rw [message]
  · exact .next _
  · exact start_sessionStop
  · exact .next _

/-- Of the messages only the start of a job can stop (R192 to R194). -/
theorem parseByte_sessionStop (b : Byte) : SessionStop s.cfg s.jp (parseByte b s) := by
  unfold parseByte
  cases s.ps.state with
  | awaitSentinel =>
    dsimp only
    split <;> exact .next _
  | awaitSelector =>
    dsimp only
    split
    · exact .next _
    · exact shortInstr_sessionStop b
  | readArg =>
    dsimp only
    split
    · exact .next _
    · exact .of_next (exec_setInstr ..)

/-- A byte of a line that fits the buffer has its place in it (R233). -/
theorem readByte_sessionStop {c : Params} {jp : JobParameters} (idle : s.running = false)
    (fits : s.jp.outWidth ≤ s.cfg.scanCap) (wanted : lineWanted s = true) : SessionStop c jp (readByte s) := by
  have room : s.job.col.toNat < s.cfg.scanCap.toNat :=
    (BitVec.lt_def.mp (of_decide_eq_true wanted)).trans_le (BitVec.le_def.mp fits)
  unfold readByte
  split
  · exact .next _
  · next b rest _ =>
    have stores : exec (.payload [b]) s = _ :=
      (storeLine_cons b [] s).trans (congrArg (andThen · _) (writeScan_next.mpr ⟨idle, room, rfl⟩))
    exact SessionStop.bind (.of_next stores) fun _ _ => .next _

/-- FOREGROUND's turn in a phase that waits for no move. -/
theorem sequencerStep_sessionStop (valid : s.cfg.Valid) (rest : BetweenMoves s) (undrawn : drawing s.job.phase = false)
    (fits : s.jp.outWidth ≤ s.cfg.scanCap) : SessionStop s.cfg s.jp (sequencerStep s) := by
  cases in_phase : s.job.phase with
  | none =>
    rw [sequencerStep, in_phase]
    cases waiting : s.rx with
    | nil => exact .of_next (rxRead_nil waiting)
    | cons b rest =>
      have parses := rxRead_cons (f := parseByte) waiting
      have stop := parseByte_sessionStop (s := { s with rx := rest }) b
      exact parses ▸ stop
  | reqLine => exact .of_next (sequencerStep_reqLine in_phase)
  | readLine =>
    rw [sequencerStep_readLine in_phase]
    split
    · next wanted => exact readByte_sessionStop rest.idle fits wanted
    · rw [beginScanline_eq rest.idle]
      exact accelerate_sessionStop (s := { s with axis := .x, physDir := physOf (currentDir s) }) valid rest.idle ..
  | accelRamp | accelFlat | raster | decelFlat | decelRamp | pitch => simp [in_phase, drawing] at undrawn

end NoWait

/-! ### Every turn -/

section Turns

variable {s : State}

theorem foregroundStep_sessionStop (valid : s.cfg.Valid) (h : Sequenced s) (fits : s.jp.outWidth ≤ s.cfg.scanCap) :
    SessionStop s.cfg s.jp (foregroundStep s) := by
  by_cases drawn : drawing s.job.phase = true
  · have waits := h.waits drawn
    cases moving : s.running with
    | true => exact .of_next (stepAs_foreground_wait_running waits moving)
    | false =>
      have in_job : s.job.phase ≠ .none := fun no_job => by simp [no_job, drawing] at drawn
      have lifts : foregroundStep s = _ := stepAs_foreground_wait_idle waits moving
      exact lifts ▸ afterWait_sessionStop valid moving (h.checked in_job) fits (h.scanned drawn) s.job.phase
  · have undrawn : drawing s.job.phase = false := Bool.eq_false_iff.mpr drawn
    have between := h.betweenMoves undrawn
    rw [foregroundStep_nil between.nothing_pending]
    exact sequencerStep_sessionStop valid between undrawn fits

/-- A dispatch faults past the table in mode FROM_TABLE only. -/
theorem modeDispatch_tableRange {m : ModeReg} {i : Nat} {left : State}
    (faults : modeDispatch m s = .fault (.tableRange i left)) :
    m = .fromTable ∧ s.cfg.table.length ≤ s.mc.stepIndex.toNat := by
  cases m with
  | normal => nomatch faults
  | fromTable =>
    rcases readTable_fault.mp (show dispatchFromTable s = _ from faults) with ⟨outside, -⟩ | ⟨d, -, programs⟩
    · exact ⟨rfl, outside⟩
    · unfold timerProgram at programs
      split at programs <;> nomatch programs
  | raster =>
    obtain ⟨-, other⟩ | ⟨-, draws⟩ := readScan_fault.mp (show dispatchRaster s = _ from faults)
    · nomatch other
    · nomatch draws
  | reserved => nomatch faults

/-- A move of a session that comes to an index past the table is a ramp one step longer than the table (R172). -/
theorem Underway.past_table {i : Nat} {left : State} (h : Underway s)
    (faults : timerStep s = .fault (.tableRange i left)) :
    s.mc.mode = .fromTable ∧ s.cfg.table.length < s.mc.totalSteps.toNat := by
  cases due : s.tmr.next with
  | pulseStart => nomatch (timerStep_startsPulse h.runs due).symm.trans faults
  | pulseEnd =>
    rw [timerStep_endsPulse h.runs due, pulseEndEvent] at faults
    split at faults
    · nomatch faults
    · next going =>
      have ended := h.end_pulse (Bool.eq_false_iff.mpr going)
      rcases andThen_eq_fault.mp faults with dispatches | ⟨u, -, last⟩
      · obtain ⟨in_mode, outside⟩ := modeDispatch_tableRange dispatches
        have below := BitVec.lt_def.mp ended.below
        rw [endPulse_mc, advanceIndex_totalSteps] at below
        exact ⟨in_mode, outside.trans_lt below⟩
      · nomatch last

theorem timerStep_sessionStop (inv : SessionInv s) : SessionStop s.cfg s.jp (timerStep s) := by
  obtain ⟨-, ⟨timer, -⟩, h⟩ := sessionInv_iff.mp inv
  cases moving : s.running with
  | false => exact .of_next (timerStep_stopped (timer.trans moving))
  | true =>
    have underway := underway_of_sessionInv inv moving
    obtain ⟨t, next, -⟩ | ⟨left, faults⟩ := underway.timerStep_cases
    · exact .of_next next
    · obtain ⟨in_mode, longer⟩ := underway.past_table faults
      obtain ⟨-, table, -⟩ := h.move moving
      have scanned : s.job.k.toNat = _ := h.scanned (h.drawing_of_moving moving)
      rw [table in_mode, scanned] at longer
      exact .past_table faults (Nat.le_antisymm (rampLength_le ..) (Nat.le_of_lt_succ longer))

theorem takeTurn_sessionStop (inv : SessionInv s) (c : Turn) : SessionStop s.cfg s.jp (takeTurn c s) := by
  have ⟨valid, engine, h⟩ := sessionInv_iff.mp inv
  have ⟨_, _, _, ⟨fits, _⟩, _⟩ := engine
  cases c with
  | foreground => exact foregroundStep_sessionStop valid h fits
  | timer => exact timerStep_sessionStop inv
  | host b => exact .next _
  | timeout => exact .next _

end Turns

/-- Settles O60: each turn stops past the table or at a job with backlash, if it stops. -/
theorem sessionsFaultOnlyPastTheTable : Obligations.SessionsFaultOnlyPastTheTable := by
  intro s inv
  have stop := takeTurn_sessionStop (afterChoice_sessionInv inv) (nextTurn s)
  rw [afterChoice_cfg, afterChoice_jp] at stop
  exact ⟨stop.fault, stop.refusal⟩

end Sys2Proof.Machine

/-! SUPPORT. The command protocol (R191 to R215): what a message of each command answers, the sentinel scan, and the Timeout of
a bounded read. With the statements O7, O8, O11, O12, O13, O16 and O20. -/

namespace Sys2Proof.Machine

/-! ### Set commands -/

section Set

variable {a : Arg} {s : State}

theorem valid_iff : a.valid = true ↔ a.term = delimiter ∧ 1 ≤ a.nd := by
  rw [Arg.valid, Bool.and_eq_true, decide_eq_true_eq, decide_eq_true_eq]

/-- A value in range is written to the command's register and answered `#Y` (R195). -/
theorem exec_setInstr_accepted (c : Selector) (valid : a.valid = true) (inRange : a.acc ≤ setLimit s.cfg c) :
    exec (setInstr c a) s =
      .next { s with
        jp := setRegister (BitVec.ofNat 16 a.acc) s.jp c, tx := s.tx ++ [0x23, 0x59],
        ps := { s.ps with state := .awaitSentinel } } := by
  rw [exec_setInstr, setCommand, if_pos valid, if_pos inRange]
  rfl

/-- A value out of range is answered `#N` (R195). -/
theorem exec_setInstr_rejected (c : Selector) (valid : a.valid = true) (beyond : setLimit s.cfg c < a.acc) :
    exec (setInstr c a) s =
      .next { s with tx := s.tx ++ [0x23, 0x4E], ps := { s.ps with state := .awaitSentinel } } := by
  rw [exec_setInstr, setCommand, if_pos valid, if_neg (Nat.not_le.mpr beyond)]
  rfl

end Set

/-! ### The start of a job -/

section Start

variable {s t : State}

theorem startRefused_iff : startRefused s = true ↔ s.jp.outWidth = 0 ∨ s.jp.velocity ≤ s.cfg.pulseWidth := by
  rw [startRefused, Bool.or_eq_true, decide_eq_true_eq, decide_eq_true_eq]

theorem startRefused_eq_false (width : s.jp.outWidth ≠ 0) (long : s.cfg.pulseWidth < s.jp.velocity) :
    startRefused s = false := by
  rw [← Bool.not_eq_true, startRefused_iff, not_or]
  exact ⟨width, BitVec.not_le.mpr long⟩

theorem beginJob_refused (refused : startRefused s = true) : beginJob s = .next (reply .nak s) :=
  if_pos refused

theorem beginJob_backlash (accepted : startRefused s = false) (backlash : s.jp.backlash ≠ 0) :
    beginJob s = .refused .backlash := by
  rw [beginJob, accepted, if_neg Bool.false_ne_true, if_pos backlash]

theorem beginJob_no_lines (accepted : startRefused s = false) (backlash : s.jp.backlash = 0)
    (no_lines : s.jp.imageHeight = 0) :
    beginJob s = .next (endJob { reply .ack s with job := { s.job with line := 0 } }) := by
  rw [beginJob, accepted, if_neg Bool.false_ne_true, if_neg (not_not_intro backlash), if_pos no_lines]

theorem beginJob_lines (accepted : startRefused s = false) (backlash : s.jp.backlash = 0) (lines : s.jp.imageHeight ≠ 0) :
    beginJob s = .next { reply .ack s with job := { s.job with line := 0, phase := .reqLine } } := by
  rw [beginJob, accepted, if_neg Bool.false_ne_true, if_neg (not_not_intro backlash), if_neg lines]

/-- START ends its message where no scanline loop has begun, which does that itself (R204). -/
theorem exec_start_ends (begins : beginJob s = .next t) (no_loop : startRefused s = true ∨ s.jp.imageHeight = 0) :
    exec .start s = .next (toSentinel t) := by
  have ends : (startRefused s || decide (s.jp.imageHeight = 0)) = true := by
    rwa [Bool.or_eq_true, decide_eq_true_eq]
  change execStart s = _
  rw [execStart, begins, andThen_next, if_pos ends]

theorem exec_start_goes_on (begins : beginJob s = .next t) (accepted : startRefused s = false)
    (lines : s.jp.imageHeight ≠ 0) : exec .start s = .next t := by
  change execStart s = _
  rw [execStart, begins, andThen_next, accepted, decide_eq_false lines]
  rfl

/-- START is `start_job`, but for the parser (R204). -/
theorem exec_start_next (starts : exec .start s = .next t) :
    ∃ u p, beginJob s = .next u ∧ t = { u with ps := p } := by
  obtain ⟨u, begins, last⟩ := andThen_eq_next.mp starts
  cases last
  split
  · exact ⟨u, { u.ps with state := .awaitSentinel }, begins, rfl⟩
  · exact ⟨u, u.ps, begins, rfl⟩

end Start

/-! ### Every command -/

section Command

variable {i : Instr} {s t : State}

/-- The commands, whether or not the decoder can read their operands (R98). -/
theorem command_cases (command : wireOf i = some .command) :
    i = .handshake ∨ i = .start ∨ (∃ sel, i = .unknown sel) ∨ ∃ c a, i = setInstr c a := by
  cases i with
  | handshake => exact .inl rfl
  | start => exact .inr (.inl rfl)
  | unknown sel => exact .inr (.inr (.inl ⟨sel, rfl⟩))
  | setX a => exact .inr (.inr (.inr ⟨.x, a, rfl⟩))
  | setY a => exact .inr (.inr (.inr ⟨.y, a, rfl⟩))
  | setP a => exact .inr (.inr (.inr ⟨.p, a, rfl⟩))
  | setB a => exact .inr (.inr (.inr ⟨.b, a, rfl⟩))
  | setS a => exact .inr (.inr (.inr ⟨.s, a, rfl⟩))
  | setR a => exact .inr (.inr (.inr ⟨.r, a, rfl⟩))
  | setV a => exact .inr (.inr (.inr ⟨.v, a, rfl⟩))
  | _ => nomatch command

/-- A command that writes more than the parser and the answer is acknowledged `#Y` (R195, R231). -/
theorem exec_command_effect (command : wireOf i = some .command) (executes : exec i s = .next t) :
    t = { s with ps := t.ps, tx := t.tx } ∨ t.tx = s.tx ++ [0x23, 0x59] := by
  rcases command_cases command with rfl | rfl | ⟨sel, rfl⟩ | ⟨c, a, rfl⟩
  · cases executes
    exact .inl rfl
  · obtain ⟨u, p, begins, rfl⟩ := exec_start_next executes
    rcases beginJob_cases s with ⟨-, answer⟩ | ⟨-, -, answer⟩ | ⟨-, -, -, answer⟩ | ⟨-, -, -, answer⟩ <;>
      cases answer.symm.trans begins
    · exact .inl rfl
    · exact .inr rfl
    · exact .inr rfl
  · cases executes
    exact .inl rfl
  · cases (exec_setInstr c a s).symm.trans executes
    rcases setCommand_cases c a s with ⟨-, -, answer⟩ | ⟨-, -, answer⟩ | ⟨-, answer⟩ <;> rw [answer]
    · exact .inr rfl
    · exact .inl rfl
    · exact .inl rfl

end Command

/-! ### The sentinel scan -/

section Scan

variable {s : State} {b : Byte}

theorem foregroundStep_waits (h : IsParser s) (empty : s.rx = []) : foregroundStep s = .next s := by
  have waits : foregroundStep s = rxRead parseByte s := by
    unfold foregroundStep sequencerStep
    rw [h.nothing_pending, h.no_job]
  exact waits.trans (rxRead_nil empty)

theorem toSentinel_of_scanning (scanning : s.ps.state = .awaitSentinel) : toSentinel s = s := by
  rw [toSentinel, ← scanning]

theorem parseByte_stray (scanning : s.ps.state = .awaitSentinel) (stray : b ≠ sentinel) :
    parseByte b s = .next (badSentinel s) := by
  unfold parseByte
  rw [scanning]
  exact if_neg stray

theorem badSentinel_answered (scanning : s.ps.state = .awaitSentinel) (answers : s.cfg.replyOnBadSentinel = true) :
    badSentinel s = reply .err s := by
  rw [badSentinel, if_pos answers]
  exact toSentinel_of_scanning (s := reply .err s) scanning

theorem badSentinel_silent (scanning : s.ps.state = .awaitSentinel) (silent : s.cfg.replyOnBadSentinel = false) :
    badSentinel s = s := by
  rw [badSentinel, silent]
  exact toSentinel_of_scanning scanning

end Scan

/-! ### A Timeout -/

section Timeout

variable {s : State}

theorem insideMessage_iff :
    insideMessage s = true ↔ s.agenda = [] ∧ s.job.phase = .none ∧ s.ps.state ≠ .awaitSentinel :=
  decide_eq_true_iff

theorem readingLine_iff :
    readingLine s = true ↔
      s.job.col < s.jp.outWidth ∧
        ((s.agenda = [] ∧ s.job.phase = .readLine) ∨ s.agenda.head? = some .lineRead) := by
  rw [readingLine, lineWanted, Bool.and_eq_true, Bool.or_eq_true, decide_eq_true_eq, decide_eq_true_eq,
    decide_eq_true_eq]

/-- The parser reads no line: in a line the job or the task says so. -/
theorem insideMessage_of_readingLine (reading : readingLine s = true) : insideMessage s = false := by
  rw [← Bool.not_eq_true, insideMessage_iff]
  rintro ⟨nothing_pending, no_job, -⟩
  obtain ⟨-, ⟨-, in_phase⟩ | line_pending⟩ := readingLine_iff.mp reading
  · nomatch no_job.symm.trans in_phase
  · rw [nothing_pending] at line_pending
    nomatch line_pending

theorem timeoutStep_of_available (available : s.rx ≠ []) : timeoutStep s = s := if_pos available

theorem timeoutStep_in_message (empty : s.rx = []) (inside : insideMessage s = true) :
    timeoutStep s = messageTimeout s := by
  rw [timeoutStep, if_neg (not_not_intro empty), if_pos inside]

theorem timeoutStep_in_line (empty : s.rx = []) (reading : readingLine s = true) : timeoutStep s = lineTimeout s := by
  rw [timeoutStep, if_neg (not_not_intro empty), insideMessage_of_readingLine reading, if_neg Bool.false_ne_true,
    if_pos reading]

/-- A wait that is not bounded does not expire (R191). -/
theorem timeoutStep_unbounded (outside : ¬ insideMessage s = true) (no_line : ¬ readingLine s = true) :
    timeoutStep s = s := by
  rw [timeoutStep, if_neg outside, if_neg no_line, ite_self]

theorem stepAs_timeout (s : State) : stepAs .timeout s = .next (timeoutStep s) := stepAs_eq_takeTurn .timeout s

end Timeout

/-! ### The statements -/

/-- Settles O16: a command that changes more is acknowledged, and `#Y` is neither of the two answers. -/
theorem rejectedCommandsChangeOnlyTheParser : Obligations.RejectedCommandsChangeOnlyTheParser := by
  intro i s t command executes rejected
  rcases exec_command_effect command executes with only_parser | acknowledged
  · exact only_parser
  · rw [acknowledged, List.append_cancel_left_eq, List.append_cancel_left_eq] at rejected
    exact absurd rejected (by decide)

/-- Settles O7: the answer's bytes are those of its encoding. -/
theorem handshakeIsEchoed : Obligations.HandshakeIsEchoed := fun _ => rfl

/-- Settles O8: each command with the limit of its selector. -/
theorem setCommandsValidateTheirArgument : Obligations.SetCommandsValidateTheirArgument := by
  intro a s delimited digits
  have valid : a.valid = true := valid_iff.mpr ⟨delimited, digits⟩
  refine ⟨fun inRange => ?width, fun beyond => ?too_wide, fun inRange => ?value, fun beyond i member => ?too_large⟩
  case width =>
    exact ⟨exec_setInstr_accepted .x valid inRange, exec_setInstr_accepted .p valid inRange⟩
  case too_wide =>
    exact List.forall_mem_cons.mpr
      ⟨exec_setInstr_rejected .x valid beyond, List.forall_mem_singleton.mpr (exec_setInstr_rejected .p valid beyond)⟩
  case value =>
    exact ⟨exec_setInstr_accepted .y valid inRange, exec_setInstr_accepted .b valid inRange,
      exec_setInstr_accepted .s valid inRange, exec_setInstr_accepted .r valid inRange,
      exec_setInstr_accepted .v valid inRange⟩
  case too_large =>
    simp only [List.mem_cons, List.not_mem_nil, or_false] at member
    rcases member with rfl | rfl | rfl | rfl | rfl
    · exact exec_setInstr_rejected .y valid beyond
    · exact exec_setInstr_rejected .b valid beyond
    · exact exec_setInstr_rejected .s valid beyond
    · exact exec_setInstr_rejected .r valid beyond
    · exact exec_setInstr_rejected .v valid beyond

/-- Settles O11: the selector is not looked at. -/
theorem unknownSelectorIsAnsweredErr : Obligations.UnknownSelectorIsAnsweredErr := fun _ _ => rfl

/-- Settles O12: FOREGROUND is the parser, which scans the oldest byte if there is one. -/
theorem sentinelScan : Obligations.SentinelScan := by
  intro s nothing_pending no_job scanning
  have parser : IsParser s := ⟨nothing_pending, no_job⟩
  refine ⟨foregroundStep_waits parser, fun b rest oldest => ?_⟩
  have parses : stepAs .foreground s = parseByte b { s with rx := rest } := foregroundStep_parses parser oldest
  rw [parses]
  refine ⟨?_, fun stray answers => ?_, fun stray silent => ?_⟩
  · rintro rfl
    exact parseByte_sentinel (s := { s with rx := rest }) scanning
  · rw [parseByte_stray (s := { s with rx := rest }) scanning stray,
      badSentinel_answered (s := { s with rx := rest }) scanning answers]
    rfl
  · rw [parseByte_stray (s := { s with rx := rest }) scanning stray,
      badSentinel_silent (s := { s with rx := rest }) scanning silent]

/-- Settles O13: the checks of `start_job` in their order, and what START adds to each outcome. -/
theorem startChecksTheJob : Obligations.StartChecksTheJob := by
  intro s
  refine ⟨fun fails => ?refused, fun width long => ⟨fun backlash => ?backlash, fun backlash lines => ?lines,
    fun backlash no_lines => ?no_lines⟩⟩
  case refused =>
    have refused : startRefused s = true := startRefused_iff.mpr fails
    exact ⟨beginJob_refused refused, exec_start_ends (beginJob_refused refused) (.inl refused)⟩
  all_goals have accepted : startRefused s = false := startRefused_eq_false width long
  case backlash =>
    have refuses := beginJob_backlash accepted backlash
    exact ⟨refuses, andThen_eq_refused.mpr (.inl refuses)⟩
  case lines =>
    have begins := beginJob_lines accepted backlash lines
    exact List.forall_mem_cons.mpr
      ⟨exec_start_goes_on begins accepted lines, List.forall_mem_singleton.mpr begins⟩
  case no_lines =>
    have ends := beginJob_no_lines accepted backlash no_lines
    exact List.forall_mem_cons.mpr ⟨exec_start_ends ends (.inr no_lines), List.forall_mem_singleton.mpr ends⟩

/-- Settles O20: the two bounded reads, and the states in neither. -/
theorem timeoutEndsABoundedRead : Obligations.TimeoutEndsABoundedRead := by
  intro s
  rw [stepAs_timeout]
  refine ⟨fun empty nothing_pending no_job inside => ?message, fun empty wanted reader => ?line, fun available => ?available,
    fun outside no_line => ?unbounded⟩
  case message =>
    rw [timeoutStep_in_message empty (insideMessage_iff.mpr ⟨nothing_pending, no_job, inside⟩)]
    rfl
  case line =>
    rw [timeoutStep_in_line empty (readingLine_iff.mpr ⟨wanted, reader⟩)]
    refine ⟨fun aborts => ?_, fun holds => ?_⟩
    · rw [lineTimeout, if_pos aborts]
      rfl
    · rw [lineTimeout, holds, if_neg Bool.false_ne_true]
  case available => rw [timeoutStep_of_available available]
  case unbounded =>
    rw [timeoutStep_unbounded (mt insideMessage_iff.mp outside) (mt readingLine_iff.mp no_line)]

end Sys2Proof.Machine

/-! SUPPORT. The job sequencer (R233, R237, R239): where the reading of a line begins, and the two outcomes of 'next line'. With
the statements O44 and O48. -/

namespace Sys2Proof.Machine

/-! ### The beginning of a line -/

section LineBegins

variable {s : State}

theorem exec_readLine_in_job (in_job : s.job.phase ≠ .none) :
    exec .readLine s = .next { s with job := { s.job with col := 0, phase := .readLine } } :=
  if_neg in_job

theorem exec_readLine_no_job (no_job : s.job.phase = .none) :
    exec .readLine s = .next (push [.lineRead] { s with job := { s.job with col := 0 } }) :=
  if_pos no_job

end LineBegins

/-- Settles O44: in a job the phase says that a line is read, outside one the task does. -/
theorem readLineBeginsAtColumnZero : Obligations.ReadLineBeginsAtColumnZero :=
  fun _ => ⟨exec_readLine_in_job, exec_readLine_no_job⟩

/-! ### The end of a line -/

section LineEnds

variable {s : State}

theorem nextLine_last (last : s.job.line + 1 = s.jp.imageHeight) :
    nextLine s = endJob { s with job := { s.job with line := s.job.line + 1 } } :=
  if_pos last

theorem nextLine_goes_on (more : s.job.line + 1 ≠ s.jp.imageHeight) :
    nextLine s = { s with job := { s.job with line := s.job.line + 1, phase := .reqLine } } :=
  if_neg more

/-- The phases that the line is over after: PITCH, and the ramp down when there is no pitch to draw (R235). -/
theorem leavePhase_nextLine (last_move : s.job.phase = .pitch ∨ (s.job.phase = .decelRamp ∧ s.jp.pitch = 0)) :
    leavePhase s = .next (nextLine s) := by
  rcases last_move with in_pitch | ⟨in_ramp, no_pitch⟩
  · exact leavePhase_pitch in_pitch
  · exact (leavePhase_decelRamp in_ramp).trans (if_pos no_pitch)

end LineEnds

/-- Settles O48: the wait lifts, nothing else is pending, and the phase is left with 'next line'. -/
theorem nextLineOrEndOfJob : Obligations.NextLineOrEndOfJob := by
  intro s pending idle last_move
  have leaves : stepAs .foreground s = .next (nextLine { s with agenda := [] }) :=
    calc stepAs .foreground s
      _ = leavePhase { s with agenda := [] } := stepAs_foreground_wait_idle pending idle
      _ = .next (nextLine { s with agenda := [] }) := leavePhase_nextLine (s := { s with agenda := [] }) last_move
  rw [leaves]
  exact ⟨fun last => congrArg Host.Outcome.next (nextLine_last (s := { s with agenda := [] }) last),
    fun more => congrArg Host.Outcome.next (nextLine_goes_on (s := { s with agenda := [] }) more)⟩

end Sys2Proof.Machine
